-- ==== Sys2Proof/Word.lean ====
section
/-! DEFINITION. The word types of UKBD-1 (spec 00_scope R6, R7): every value is unsigned, bit 0 is the
least significant bit. -/

namespace Sys2Proof

/-- A byte: a scan code, a ring byte, an operand `ARG`, the value of an I/O write (R63, R64, R83). -/
abbrev Byte := BitVec 8

/-- A 16-bit word: a command `CMD`, a response `RESP`, the mask `IMASK` (R35, R80, R88). -/
abbrev Word := BitVec 16

/-- A 16-bit I/O port number (R60, R64). -/
abbrev Port := BitVec 16

/-- The 7-bit keyboard modifier register `MOD`, and an entry of `SHIFTCODE` or `TOGGLECODE` (R23, R29). -/
abbrev ModBits := BitVec 7

end Sys2Proof
end

