-- ==== Sys2Proof/Syntax.lean ====
section
/-! DEFINITION. The UKBD-1 command set, version 1 (spec 30_encoding R80 to R84): the one command format `CF`
and one constructor of `Instr` per row of opcode_table.json. -/

namespace Sys2Proof

/-- The one command format `CF` (R80): `OPC` in bits 15..12, `RSV` in bits 11..8, `ARG` in bits 7..0. -/
structure CF where
  opc : BitVec 4
  rsv : BitVec 4
  arg : Byte
deriving DecidableEq, Repr

/-- The five commands (R84).  Each operand is the whole 8-bit `ARG`, unsigned (R83). -/
inductive Instr where
  /-- `KBD_IN code` (R140): one scan code for the decoder. -/
  | kbdIn (code : Byte)
  /-- `SER_IN b` (R173): one byte the serial receiver delivered. -/
  | serIn (b : Byte)
  /-- `POP` (R174): the consumer takes one byte. -/
  | pop
  /-- `IRQ_ENABLE irq` (R101): unmask one interrupt line. -/
  | irqEnable (irq : Byte)
  /-- `PIC_INIT base` (R104): program both interrupt controllers. -/
  | picInit (base : Byte)
deriving DecidableEq, Repr

/-- Why a command word is reserved (R85, R86). -/
inductive ReservedWhy where
  /-- `OPC` is 0x0 or 0x6 to 0xF (R85). -/
  | opcode (opc : BitVec 4)
  /-- `RSV` is not 0000 (R86). -/
  | rsvField (rsv : BitVec 4)
  /-- A `POP` word whose `ARG` is not 0x00 (R86). -/
  | popOperand (arg : Byte)
deriving DecidableEq, Repr

/-- What the decoder reads from a word: a command, or a reserved word with the reason (R87). -/
inductive Decoded where
  | command (i : Instr)
  | reserved (why : ReservedWhy)
deriving DecidableEq, Repr

end Sys2Proof
end

