-- ==== Sys2Proof/WellFormed.lean ====
section
/-! DEFINITION. Which command fields and which commands are well formed (spec 30_encoding R83, R85, R86). -/

namespace Sys2Proof

/-- R86: the `RSV` field must be 0000. -/
def CF.rsvOk (f : CF) : Bool := f.rsv == 0#4

/-- R85: `OPC` values 0x0 and 0x6 to 0xF are reserved. -/
def CF.opcOk (f : CF) : Bool := 1 ≤ f.opc.toNat && f.opc.toNat ≤ 5

/-- R86: the `ARG` of a `POP` word (`OPC` 0x3) must be 0x00. -/
def CF.popOk (f : CF) : Bool := f.opc != 3#4 || f.arg == 0#8

/-- The fields of a word that is a command: none of the reserved cases of R85 and R86. -/
def CF.wf (f : CF) : Bool := f.rsvOk && f.opcOk && f.popOk

/-- R83: every value of `ARG` is legal for the four commands that have an operand (an `IRQ_ENABLE` of 16 to 255 is
a command too, rejected as a no-op by R102), and `POP` has no operand.  The operand's width is in its type, so every
term of `Instr` is well formed; that its fields satisfy `CF.wf` is a statement about the encoder. -/
def Instr.wf : Instr → Bool
  | .kbdIn _ => true
  | .serIn _ => true
  | .pop => true
  | .irqEnable _ => true
  | .picInit _ => true

end Sys2Proof
end

