-- ==== Sys2Proof/Decode.lean ====
section
/-! DEFINITION. Decoding and encoding (spec 30_encoding R80 to R87): the decoder, total on all 65536 words and
rejecting a reserved word by name, and the encoder, both from the opcode map of R84. -/

namespace Sys2Proof

/-- The fields of a command word (R80). -/
def CF.ofWord (w : Word) : CF :=
  { opc := w.extractLsb' 12 4, rsv := w.extractLsb' 8 4, arg := w.extractLsb' 0 8 }

/-- The word of the fields, `OPC ++ RSV ++ ARG` (R80). -/
def CF.toWord (f : CF) : Word := f.opc ++ f.rsv ++ f.arg

/-- The opcode of each command (R84). -/
def Instr.opc : Instr → BitVec 4
  | .kbdIn _ => 0x1#4
  | .serIn _ => 0x2#4
  | .pop => 0x3#4
  | .irqEnable _ => 0x4#4
  | .picInit _ => 0x5#4

/-- The operand of each command; `POP` has none and its `ARG` is 0x00 (R83). -/
def Instr.arg : Instr → Byte
  | .kbdIn code => code
  | .serIn b => b
  | .pop => 0x00#8
  | .irqEnable irq => irq
  | .picInit base => base

/-- The decode algorithm of R87 on the fields of a word: `RSV` first, then `OPC`. -/
def CF.decode (f : CF) : Decoded :=
  if f.rsv ≠ 0#4 then .reserved (.rsvField f.rsv)
  else if f.opc = 0x1#4 then .command (.kbdIn f.arg)
  else if f.opc = 0x2#4 then .command (.serIn f.arg)
  else if f.opc = 0x3#4 then
    if f.arg = 0x00#8 then .command .pop else .reserved (.popOperand f.arg)
  else if f.opc = 0x4#4 then .command (.irqEnable f.arg)
  else if f.opc = 0x5#4 then .command (.picInit f.arg)
  else .reserved (.opcode f.opc)

/-- R87: `decode`, total on all 65536 words. -/
def decode (w : Word) : Decoded := (CF.ofWord w).decode

/-- R80, R83, R84: the fields of a command. -/
def Instr.fields (i : Instr) : CF := { opc := i.opc, rsv := 0#4, arg := i.arg }

/-- The word of a command, from the same table. -/
def encode (i : Instr) : Word := i.fields.toWord

/-- The word whose `nbits` bits the opcode table numbers as those of `w`: bit 0 is the least significant bit of the
16-bit command word, which is never split into bytes (R67); every bit above `nbits` is 0. -/
def tableWord (nbits w : Nat) : Word := BitVec.ofNat 16 (w % 2 ^ nbits)

/-- The command this decoder reads from a word given as the opcode table numbers its bits; none for a reserved word. -/
def decodeTableWord (nbits w : Nat) : Option Instr :=
  match decode (tableWord nbits w) with
  | .command i => some i
  | .reserved _ => none

end Sys2Proof
end

