-- ==== Sys2Proof/Config.lean ====
section
/-! DEFINITION. What one implementation fixes (spec 00_scope R5) and the free values of the model.  R5: the model
takes the parameters as arguments; they are the fields of `Config`, the machine carries one `Config` as read-only
data, and every rule is stated for any value that meets R5 and R150.  The reference values stand in
Machine/Reference.lean. -/

namespace Sys2Proof

/-- `NIRQ`, the number of IRQ lines and the width of the mask (R5, fixed). -/
abbrev NIRQ : Nat := 16

/-- `CASCADE`, the master line wired to the slave (R5, fixed). -/
abbrev CASCADE : Nat := 2

/-- The parameters of R5.  The tables are lists of 256 entries, entry `i` at position `i` (R29); `KMAP[2]` and
`KMAP[3]` are one list, `kmapCtl` (R150 point 1). -/
structure Config where
  /-- `CAP`, the ring capacity in bytes. -/
  cap : Nat
  kmapNormal : List Byte
  kmapShift : List Byte
  kmapCtl : List Byte
  shiftCode : List ModBits
  toggleCode : List ModBits
  /-- `KEY_DEL`, the byte of the logical delete key. -/
  keyDel : Byte
  resetPort : Port
  resetCmd : Byte
  pic1Cmd : Port
  pic1Data : Port
  pic2Cmd : Port
  pic2Data : Port
  /-- `KBC_DATA`, read by the host's drain loop only (R176). -/
  kbcData : Port
  /-- `KBC_STATUS`, read by the host's drain loop only (R176). -/
  kbcStatus : Port
  /-- The bit of `KBC_STATUS` that says "output buffer full" (R176). -/
  kbcFullBit : Nat
  irqKbd : Byte
  irqSer : Byte
  icw1 : Byte
  icw3m : Byte
  icw3s : Byte
  icw4 : Byte
  ocw3a : Byte
  ocw3b : Byte
  /-- `IMASK_RESET`, the mask at reset. -/
  imaskReset : Word
deriving DecidableEq, Repr

namespace Config

/-- Entry `i` of a table (R29).  A table of fewer than 256 entries is no table of R29 (`tablesOk` refuses it); the
function answers 0 past the end of one. -/
def entry {n : Nat} (t : List (BitVec n)) (i : Byte) : BitVec n := t.getD i.toNat 0

/-- All 256 indices of a table. -/
def indices : List Byte := (List.range 256).map (BitVec.ofNat 8)

/-- R5: `CAP >= 1`. -/
def capOk (c : Config) : Bool := 1 ≤ c.cap

/-- R29, R150 point 1: 256 entries each. -/
def tablesOk (c : Config) : Bool :=
  c.kmapNormal.length == 256 && c.kmapShift.length == 256 && c.kmapCtl.length == 256 &&
    c.shiftCode.length == 256 && c.toggleCode.length == 256

/-- R150 point 2: a `SHIFTCODE` entry lies in SHIFT, CTL, ALT. -/
def heldOk (c : Config) : Bool := c.shiftCode.all fun e => e &&& 0x78#7 == 0#7

/-- R150 point 2: a `TOGGLECODE` entry lies in CAPSLOCK, NUMLOCK, SCROLLLOCK. -/
def toggleOk (c : Config) : Bool := c.toggleCode.all fun e => e &&& 0x47#7 == 0#7

/-- R150 point 3: make code 0x1E is the letter a. -/
def letterAOk (c : Config) : Bool := entry c.kmapNormal 0x1E#8 == 0x61#8

/-- R150 point 4: where the normal table gives a lower-case letter for a make code, the shift table gives the same
letter in upper case. -/
def letterCaseOk (c : Config) : Bool :=
  indices.all fun k =>
    k.getLsbD 7 || !(0x61 ≤ (entry c.kmapNormal k).toNat && (entry c.kmapNormal k).toNat ≤ 0x7A) ||
      entry c.kmapShift k == entry c.kmapNormal k - 0x20#8

/-- R150 point 5: some make code holds SHIFT. -/
def shiftKeyOk (c : Config) : Bool :=
  indices.any fun k => !k.getLsbD 7 && entry c.shiftCode k &&& 0x01#7 != 0#7

/-- R150 point 6: some extended key gives a newline, and some un-prefixed make code gives a digit. -/
def keypadOk (c : Config) : Bool :=
  (indices.any fun k => k.getLsbD 7 && entry c.kmapNormal k == 0x0A#8) &&
    indices.any fun k =>
      !k.getLsbD 7 && 0x30 ≤ (entry c.kmapNormal k).toNat && (entry c.kmapNormal k).toNat ≤ 0x39

/-- R150 point 7: the ctrl table holds `KEY_DEL`, and there are entries for ctrl and for alt; R5: `KEY_DEL` is not 0. -/
def resetComboOk (c : Config) : Bool :=
  c.keyDel != 0#8 && (indices.any fun k => entry c.kmapCtl k == c.keyDel) &&
    (indices.any fun k => entry c.shiftCode k &&& 0x02#7 != 0#7) &&
    indices.any fun k => entry c.shiftCode k &&& 0x04#7 != 0#7

/-- R5: each of `IRQ_KBD` and `IRQ_SER` is in 0..15 and not the cascade line.  R5 does not ask that they differ, and neither does this (notes/assumptions/21). -/
def irqLinesOk (c : Config) : Bool :=
  c.irqKbd.toNat < NIRQ && c.irqKbd.toNat != CASCADE && c.irqSer.toNat < NIRQ && c.irqSer.toNat != CASCADE

/-- R5: bit 2 of `IMASK_RESET` is clear. -/
def imaskResetOk (c : Config) : Bool := !c.imaskReset.getLsbD CASCADE

/-- The parameters meet the constraints of R5 and R150. -/
def wf (c : Config) : Bool :=
  c.capOk && c.tablesOk && c.heldOk && c.toggleOk && c.letterAOk && c.letterCaseOk && c.shiftKeyOk &&
    c.keypadOk && c.resetComboOk && c.irqLinesOk && c.imaskResetOk

/-- The five ports the block writes are different ports (R69 gives each its own role). -/
def portsDistinct (c : Config) : Bool :=
  decide ([c.pic1Cmd, c.pic1Data, c.pic2Cmd, c.pic2Data, c.resetPort].Nodup)

/-- The programming bytes have the shapes that R105, R106, R109 and R110 give them in the 8259 layout: `ICW1` is an ICW1
(bit 4), edge-triggered (bit 3 clear), cascaded (bit 1 clear), with an ICW4 (bit 0); `ICW4` is 8086 mode with automatic
end of interrupt, not fully nested and not buffered (bits 4..2 clear, bits 1 and 0 set); `ICW3_M` and `ICW3_S` name the cascade
line; `OCW3_A` and `OCW3_B` are OCW3s (bit 4 clear, bit 3 set). -/
def bytesOk (c : Config) : Bool :=
  c.icw1.getLsbD 4 && !c.icw1.getLsbD 3 && !c.icw1.getLsbD 1 && c.icw1.getLsbD 0 &&
    c.icw4 &&& 0x1F#8 == 0x03#8 && c.icw3m == 1#8 <<< CASCADE && c.icw3s == BitVec.ofNat 8 CASCADE &&
    !c.ocw3a.getLsbD 4 && c.ocw3a.getLsbD 3 && !c.ocw3b.getLsbD 4 && c.ocw3b.getLsbD 3

/-- What the controller view of R207 needs of the ports and the programming bytes. -/
def picOk (c : Config) : Bool := c.portsDistinct && c.bytesOk

end Config

/-- The two external controllers (R204): the master has lines 0 to 7, the slave lines 8 to 15. -/
inductive PicUnit where
  | master
  | slave
deriving DecidableEq, Repr

/-- What a controller expects next on its data port (R207). -/
inductive PicPhase where
  | ready
  | icw2
  | icw3
  | icw4
deriving DecidableEq, Repr, Inhabited

/-- The reference view of one controller (R207): `phase`, `icw1`, `imr`; and `vecBase`, the ICW2 it was last given, from
which R206 forms its vectors (DEDUCED, notes/assumptions/8). -/
structure Pic where
  phase : PicPhase
  icw1 : Byte
  vecBase : Byte
  imr : Byte
deriving DecidableEq, Repr, Inhabited

/-- FREE VALUE (R39, D29: "a draw"): the state of a controller at power-on, for each power-on `n` of the run.  No body, so no proof can see
what it is (notes/assumptions/7). -/
opaque Config.powerOnPic : Nat → PicUnit → Pic

end Sys2Proof
end

