-- ==== Sys2Proof/Machine/Reference.lean ====
section
/-! DEFINITION. The reference instantiation of the parameters (spec 00_scope R5; 41_scan_decoder R151 to R156).  All of it is marked
[from general knowledge, not in source] by the spec, but for `NIRQ`, `CASCADE` and the points of R150.  One row of a table here is one row of
the spec's table. -/

namespace Sys2Proof.Machine

/-- R151: reference `KMAP_NORMAL`. -/
def refKmapNormal : List Byte :=
  [0x00#8, 0x1B#8, 0x31#8, 0x32#8, 0x33#8, 0x34#8, 0x35#8, 0x36#8, 0x37#8, 0x38#8, 0x39#8, 0x30#8, 0x2D#8, 0x3D#8, 0x08#8, 0x09#8] ++
  [0x71#8, 0x77#8, 0x65#8, 0x72#8, 0x74#8, 0x79#8, 0x75#8, 0x69#8, 0x6F#8, 0x70#8, 0x5B#8, 0x5D#8, 0x0A#8, 0x00#8, 0x61#8, 0x73#8] ++
  [0x64#8, 0x66#8, 0x67#8, 0x68#8, 0x6A#8, 0x6B#8, 0x6C#8, 0x3B#8, 0x27#8, 0x60#8, 0x00#8, 0x5C#8, 0x7A#8, 0x78#8, 0x63#8, 0x76#8] ++
  [0x62#8, 0x6E#8, 0x6D#8, 0x2C#8, 0x2E#8, 0x2F#8, 0x00#8, 0x2A#8, 0x00#8, 0x20#8, 0x00#8, 0x00#8, 0x00#8, 0x00#8, 0x00#8, 0x00#8] ++
  [0x00#8, 0x00#8, 0x00#8, 0x00#8, 0x00#8, 0x00#8, 0x00#8, 0x37#8, 0x38#8, 0x39#8, 0x2D#8, 0x34#8, 0x35#8, 0x36#8, 0x2B#8, 0x31#8] ++
  [0x32#8, 0x33#8, 0x30#8, 0x2E#8, 0x00#8, 0x00#8, 0x00#8, 0x00#8, 0x00#8, 0x00#8, 0x00#8, 0x00#8, 0x00#8, 0x00#8, 0x00#8, 0x00#8] ++
  [0x00#8, 0x00#8, 0x00#8, 0x00#8, 0x00#8, 0x00#8, 0x00#8, 0x00#8, 0x00#8, 0x00#8, 0x00#8, 0x00#8, 0x00#8, 0x00#8, 0x00#8, 0x00#8] ++
  [0x00#8, 0x00#8, 0x00#8, 0x00#8, 0x00#8, 0x00#8, 0x00#8, 0x00#8, 0x00#8, 0x00#8, 0x00#8, 0x00#8, 0x00#8, 0x00#8, 0x00#8, 0x00#8] ++
  [0x00#8, 0x00#8, 0x00#8, 0x00#8, 0x00#8, 0x00#8, 0x00#8, 0x00#8, 0x00#8, 0x00#8, 0x00#8, 0x00#8, 0x00#8, 0x00#8, 0x00#8, 0x00#8] ++
  [0x00#8, 0x00#8, 0x00#8, 0x00#8, 0x00#8, 0x00#8, 0x00#8, 0x00#8, 0x00#8, 0x00#8, 0x00#8, 0x00#8, 0x0A#8, 0x00#8, 0x00#8, 0x00#8] ++
  [0x00#8, 0x00#8, 0x00#8, 0x00#8, 0x00#8, 0x00#8, 0x00#8, 0x00#8, 0x00#8, 0x00#8, 0x00#8, 0x00#8, 0x00#8, 0x00#8, 0x00#8, 0x00#8] ++
  [0x00#8, 0x00#8, 0x00#8, 0x00#8, 0x00#8, 0x2F#8, 0x00#8, 0x00#8, 0x00#8, 0x00#8, 0x00#8, 0x00#8, 0x00#8, 0x00#8, 0x00#8, 0x00#8] ++
  [0x00#8, 0x00#8, 0x00#8, 0x00#8, 0x00#8, 0x00#8, 0x00#8, 0xE0#8, 0xE2#8, 0xE6#8, 0x00#8, 0xE4#8, 0x00#8, 0xE5#8, 0x00#8, 0xE1#8] ++
  [0xE3#8, 0xE7#8, 0xE8#8, 0xE9#8, 0x00#8, 0x00#8, 0x00#8, 0x00#8, 0x00#8, 0x00#8, 0x00#8, 0x00#8, 0x00#8, 0x00#8, 0x00#8, 0x00#8] ++
  [0x00#8, 0x00#8, 0x00#8, 0x00#8, 0x00#8, 0x00#8, 0x00#8, 0x00#8, 0x00#8, 0x00#8, 0x00#8, 0x00#8, 0x00#8, 0x00#8, 0x00#8, 0x00#8] ++
  [0x00#8, 0x00#8, 0x00#8, 0x00#8, 0x00#8, 0x00#8, 0x00#8, 0x00#8, 0x00#8, 0x00#8, 0x00#8, 0x00#8, 0x00#8, 0x00#8, 0x00#8, 0x00#8]

/-- R152: reference `KMAP_SHIFT`. -/
def refKmapShift : List Byte :=
  [0x00#8, 0x1B#8, 0x21#8, 0x40#8, 0x23#8, 0x24#8, 0x25#8, 0x5E#8, 0x26#8, 0x2A#8, 0x28#8, 0x29#8, 0x5F#8, 0x2B#8, 0x08#8, 0x09#8] ++
  [0x51#8, 0x57#8, 0x45#8, 0x52#8, 0x54#8, 0x59#8, 0x55#8, 0x49#8, 0x4F#8, 0x50#8, 0x7B#8, 0x7D#8, 0x0A#8, 0x00#8, 0x41#8, 0x53#8] ++
  [0x44#8, 0x46#8, 0x47#8, 0x48#8, 0x4A#8, 0x4B#8, 0x4C#8, 0x3A#8, 0x22#8, 0x7E#8, 0x00#8, 0x7C#8, 0x5A#8, 0x58#8, 0x43#8, 0x56#8] ++
  [0x42#8, 0x4E#8, 0x4D#8, 0x3C#8, 0x3E#8, 0x3F#8, 0x00#8, 0x2A#8, 0x00#8, 0x20#8, 0x00#8, 0x00#8, 0x00#8, 0x00#8, 0x00#8, 0x00#8] ++
  [0x00#8, 0x00#8, 0x00#8, 0x00#8, 0x00#8, 0x00#8, 0x00#8, 0x37#8, 0x38#8, 0x39#8, 0x2D#8, 0x34#8, 0x35#8, 0x36#8, 0x2B#8, 0x31#8] ++
  [0x32#8, 0x33#8, 0x30#8, 0x2E#8, 0x00#8, 0x00#8, 0x00#8, 0x00#8, 0x00#8, 0x00#8, 0x00#8, 0x00#8, 0x00#8, 0x00#8, 0x00#8, 0x00#8] ++
  [0x00#8, 0x00#8, 0x00#8, 0x00#8, 0x00#8, 0x00#8, 0x00#8, 0x00#8, 0x00#8, 0x00#8, 0x00#8, 0x00#8, 0x00#8, 0x00#8, 0x00#8, 0x00#8] ++
  [0x00#8, 0x00#8, 0x00#8, 0x00#8, 0x00#8, 0x00#8, 0x00#8, 0x00#8, 0x00#8, 0x00#8, 0x00#8, 0x00#8, 0x00#8, 0x00#8, 0x00#8, 0x00#8] ++
  [0x00#8, 0x00#8, 0x00#8, 0x00#8, 0x00#8, 0x00#8, 0x00#8, 0x00#8, 0x00#8, 0x00#8, 0x00#8, 0x00#8, 0x00#8, 0x00#8, 0x00#8, 0x00#8] ++
  [0x00#8, 0x00#8, 0x00#8, 0x00#8, 0x00#8, 0x00#8, 0x00#8, 0x00#8, 0x00#8, 0x00#8, 0x00#8, 0x00#8, 0x0A#8, 0x00#8, 0x00#8, 0x00#8] ++
  [0x00#8, 0x00#8, 0x00#8, 0x00#8, 0x00#8, 0x00#8, 0x00#8, 0x00#8, 0x00#8, 0x00#8, 0x00#8, 0x00#8, 0x00#8, 0x00#8, 0x00#8, 0x00#8] ++
  [0x00#8, 0x00#8, 0x00#8, 0x00#8, 0x00#8, 0x2F#8, 0x00#8, 0x00#8, 0x00#8, 0x00#8, 0x00#8, 0x00#8, 0x00#8, 0x00#8, 0x00#8, 0x00#8] ++
  [0x00#8, 0x00#8, 0x00#8, 0x00#8, 0x00#8, 0x00#8, 0x00#8, 0xE0#8, 0xE2#8, 0xE6#8, 0x00#8, 0xE4#8, 0x00#8, 0xE5#8, 0x00#8, 0xE1#8] ++
  [0xE3#8, 0xE7#8, 0xE8#8, 0xE9#8, 0x00#8, 0x00#8, 0x00#8, 0x00#8, 0x00#8, 0x00#8, 0x00#8, 0x00#8, 0x00#8, 0x00#8, 0x00#8, 0x00#8] ++
  [0x00#8, 0x00#8, 0x00#8, 0x00#8, 0x00#8, 0x00#8, 0x00#8, 0x00#8, 0x00#8, 0x00#8, 0x00#8, 0x00#8, 0x00#8, 0x00#8, 0x00#8, 0x00#8] ++
  [0x00#8, 0x00#8, 0x00#8, 0x00#8, 0x00#8, 0x00#8, 0x00#8, 0x00#8, 0x00#8, 0x00#8, 0x00#8, 0x00#8, 0x00#8, 0x00#8, 0x00#8, 0x00#8]

/-- R153: reference `KMAP_CTL`, used for `KMAP[2]` and `KMAP[3]`. -/
def refKmapCtl : List Byte :=
  [0x00#8, 0x00#8, 0x00#8, 0x00#8, 0x00#8, 0x00#8, 0x00#8, 0x00#8, 0x00#8, 0x00#8, 0x00#8, 0x00#8, 0x00#8, 0x00#8, 0x00#8, 0x00#8] ++
  [0x11#8, 0x17#8, 0x05#8, 0x12#8, 0x14#8, 0x19#8, 0x15#8, 0x09#8, 0x0F#8, 0x10#8, 0x00#8, 0x00#8, 0x0D#8, 0x00#8, 0x01#8, 0x13#8] ++
  [0x04#8, 0x06#8, 0x07#8, 0x08#8, 0x0A#8, 0x0B#8, 0x0C#8, 0x00#8, 0x00#8, 0x00#8, 0x00#8, 0x1C#8, 0x1A#8, 0x18#8, 0x03#8, 0x16#8] ++
  [0x02#8, 0x0E#8, 0x0D#8, 0x00#8, 0x00#8, 0xEF#8, 0x00#8, 0x00#8, 0x00#8, 0x00#8, 0x00#8, 0x00#8, 0x00#8, 0x00#8, 0x00#8, 0x00#8] ++
  [0x00#8, 0x00#8, 0x00#8, 0x00#8, 0x00#8, 0x00#8, 0x00#8, 0x00#8, 0x00#8, 0x00#8, 0x00#8, 0x00#8, 0x00#8, 0x00#8, 0x00#8, 0x00#8] ++
  [0x00#8, 0x00#8, 0x00#8, 0x00#8, 0x00#8, 0x00#8, 0x00#8, 0x00#8, 0x00#8, 0x00#8, 0x00#8, 0x00#8, 0x00#8, 0x00#8, 0x00#8, 0x00#8] ++
  [0x00#8, 0x00#8, 0x00#8, 0x00#8, 0x00#8, 0x00#8, 0x00#8, 0x00#8, 0x00#8, 0x00#8, 0x00#8, 0x00#8, 0x00#8, 0x00#8, 0x00#8, 0x00#8] ++
  [0x00#8, 0x00#8, 0x00#8, 0x00#8, 0x00#8, 0x00#8, 0x00#8, 0x00#8, 0x00#8, 0x00#8, 0x00#8, 0x00#8, 0x00#8, 0x00#8, 0x00#8, 0x00#8] ++
  [0x00#8, 0x00#8, 0x00#8, 0x00#8, 0x00#8, 0x00#8, 0x00#8, 0x00#8, 0x00#8, 0x00#8, 0x00#8, 0x00#8, 0x00#8, 0x00#8, 0x00#8, 0x00#8] ++
  [0x00#8, 0x00#8, 0x00#8, 0x00#8, 0x00#8, 0x00#8, 0x00#8, 0xE0#8, 0x00#8, 0x00#8, 0x00#8, 0x00#8, 0x00#8, 0x00#8, 0x00#8, 0x00#8] ++
  [0x00#8, 0x00#8, 0x00#8, 0x00#8, 0x00#8, 0x00#8, 0x00#8, 0x00#8, 0x00#8, 0x00#8, 0x00#8, 0x00#8, 0x00#8, 0x00#8, 0x00#8, 0x00#8] ++
  [0x00#8, 0x00#8, 0x00#8, 0x00#8, 0x00#8, 0xEF#8, 0x00#8, 0x00#8, 0x00#8, 0x00#8, 0x00#8, 0x00#8, 0x00#8, 0x00#8, 0x00#8, 0x00#8] ++
  [0x00#8, 0x00#8, 0x00#8, 0x00#8, 0x00#8, 0x00#8, 0x00#8, 0x00#8, 0xE2#8, 0xE6#8, 0x00#8, 0xE4#8, 0x00#8, 0xE5#8, 0x00#8, 0xE1#8] ++
  [0xE3#8, 0xE7#8, 0xE8#8, 0xE9#8, 0x00#8, 0x00#8, 0x00#8, 0x00#8, 0x00#8, 0x00#8, 0x00#8, 0x00#8, 0x00#8, 0x00#8, 0x00#8, 0x00#8] ++
  [0x00#8, 0x00#8, 0x00#8, 0x00#8, 0x00#8, 0x00#8, 0x00#8, 0x00#8, 0x00#8, 0x00#8, 0x00#8, 0x00#8, 0x00#8, 0x00#8, 0x00#8, 0x00#8] ++
  [0x00#8, 0x00#8, 0x00#8, 0x00#8, 0x00#8, 0x00#8, 0x00#8, 0x00#8, 0x00#8, 0x00#8, 0x00#8, 0x00#8, 0x00#8, 0x00#8, 0x00#8, 0x00#8]

/-- R154: reference `SHIFTCODE`. -/
def refShiftCode : List ModBits :=
  [0x00#7, 0x00#7, 0x00#7, 0x00#7, 0x00#7, 0x00#7, 0x00#7, 0x00#7, 0x00#7, 0x00#7, 0x00#7, 0x00#7, 0x00#7, 0x00#7, 0x00#7, 0x00#7] ++
  [0x00#7, 0x00#7, 0x00#7, 0x00#7, 0x00#7, 0x00#7, 0x00#7, 0x00#7, 0x00#7, 0x00#7, 0x00#7, 0x00#7, 0x00#7, 0x02#7, 0x00#7, 0x00#7] ++
  [0x00#7, 0x00#7, 0x00#7, 0x00#7, 0x00#7, 0x00#7, 0x00#7, 0x00#7, 0x00#7, 0x00#7, 0x01#7, 0x00#7, 0x00#7, 0x00#7, 0x00#7, 0x00#7] ++
  [0x00#7, 0x00#7, 0x00#7, 0x00#7, 0x00#7, 0x00#7, 0x01#7, 0x00#7, 0x04#7, 0x00#7, 0x00#7, 0x00#7, 0x00#7, 0x00#7, 0x00#7, 0x00#7] ++
  [0x00#7, 0x00#7, 0x00#7, 0x00#7, 0x00#7, 0x00#7, 0x00#7, 0x00#7, 0x00#7, 0x00#7, 0x00#7, 0x00#7, 0x00#7, 0x00#7, 0x00#7, 0x00#7] ++
  [0x00#7, 0x00#7, 0x00#7, 0x00#7, 0x00#7, 0x00#7, 0x00#7, 0x00#7, 0x00#7, 0x00#7, 0x00#7, 0x00#7, 0x00#7, 0x00#7, 0x00#7, 0x00#7] ++
  [0x00#7, 0x00#7, 0x00#7, 0x00#7, 0x00#7, 0x00#7, 0x00#7, 0x00#7, 0x00#7, 0x00#7, 0x00#7, 0x00#7, 0x00#7, 0x00#7, 0x00#7, 0x00#7] ++
  [0x00#7, 0x00#7, 0x00#7, 0x00#7, 0x00#7, 0x00#7, 0x00#7, 0x00#7, 0x00#7, 0x00#7, 0x00#7, 0x00#7, 0x00#7, 0x00#7, 0x00#7, 0x00#7] ++
  [0x00#7, 0x00#7, 0x00#7, 0x00#7, 0x00#7, 0x00#7, 0x00#7, 0x00#7, 0x00#7, 0x00#7, 0x00#7, 0x00#7, 0x00#7, 0x00#7, 0x00#7, 0x00#7] ++
  [0x00#7, 0x00#7, 0x00#7, 0x00#7, 0x00#7, 0x00#7, 0x00#7, 0x00#7, 0x00#7, 0x00#7, 0x00#7, 0x00#7, 0x00#7, 0x02#7, 0x00#7, 0x00#7] ++
  [0x00#7, 0x00#7, 0x00#7, 0x00#7, 0x00#7, 0x00#7, 0x00#7, 0x00#7, 0x00#7, 0x00#7, 0x00#7, 0x00#7, 0x00#7, 0x00#7, 0x00#7, 0x00#7] ++
  [0x00#7, 0x00#7, 0x00#7, 0x00#7, 0x00#7, 0x00#7, 0x00#7, 0x00#7, 0x04#7, 0x00#7, 0x00#7, 0x00#7, 0x00#7, 0x00#7, 0x00#7, 0x00#7] ++
  [0x00#7, 0x00#7, 0x00#7, 0x00#7, 0x00#7, 0x00#7, 0x00#7, 0x00#7, 0x00#7, 0x00#7, 0x00#7, 0x00#7, 0x00#7, 0x00#7, 0x00#7, 0x00#7] ++
  [0x00#7, 0x00#7, 0x00#7, 0x00#7, 0x00#7, 0x00#7, 0x00#7, 0x00#7, 0x00#7, 0x00#7, 0x00#7, 0x00#7, 0x00#7, 0x00#7, 0x00#7, 0x00#7] ++
  [0x00#7, 0x00#7, 0x00#7, 0x00#7, 0x00#7, 0x00#7, 0x00#7, 0x00#7, 0x00#7, 0x00#7, 0x00#7, 0x00#7, 0x00#7, 0x00#7, 0x00#7, 0x00#7] ++
  [0x00#7, 0x00#7, 0x00#7, 0x00#7, 0x00#7, 0x00#7, 0x00#7, 0x00#7, 0x00#7, 0x00#7, 0x00#7, 0x00#7, 0x00#7, 0x00#7, 0x00#7, 0x00#7]

/-- R155: reference `TOGGLECODE`. -/
def refToggleCode : List ModBits :=
  [0x00#7, 0x00#7, 0x00#7, 0x00#7, 0x00#7, 0x00#7, 0x00#7, 0x00#7, 0x00#7, 0x00#7, 0x00#7, 0x00#7, 0x00#7, 0x00#7, 0x00#7, 0x00#7] ++
  [0x00#7, 0x00#7, 0x00#7, 0x00#7, 0x00#7, 0x00#7, 0x00#7, 0x00#7, 0x00#7, 0x00#7, 0x00#7, 0x00#7, 0x00#7, 0x00#7, 0x00#7, 0x00#7] ++
  [0x00#7, 0x00#7, 0x00#7, 0x00#7, 0x00#7, 0x00#7, 0x00#7, 0x00#7, 0x00#7, 0x00#7, 0x00#7, 0x00#7, 0x00#7, 0x00#7, 0x00#7, 0x00#7] ++
  [0x00#7, 0x00#7, 0x00#7, 0x00#7, 0x00#7, 0x00#7, 0x00#7, 0x00#7, 0x00#7, 0x00#7, 0x08#7, 0x00#7, 0x00#7, 0x00#7, 0x00#7, 0x00#7] ++
  [0x00#7, 0x00#7, 0x00#7, 0x00#7, 0x00#7, 0x10#7, 0x20#7, 0x00#7, 0x00#7, 0x00#7, 0x00#7, 0x00#7, 0x00#7, 0x00#7, 0x00#7, 0x00#7] ++
  [0x00#7, 0x00#7, 0x00#7, 0x00#7, 0x00#7, 0x00#7, 0x00#7, 0x00#7, 0x00#7, 0x00#7, 0x00#7, 0x00#7, 0x00#7, 0x00#7, 0x00#7, 0x00#7] ++
  [0x00#7, 0x00#7, 0x00#7, 0x00#7, 0x00#7, 0x00#7, 0x00#7, 0x00#7, 0x00#7, 0x00#7, 0x00#7, 0x00#7, 0x00#7, 0x00#7, 0x00#7, 0x00#7] ++
  [0x00#7, 0x00#7, 0x00#7, 0x00#7, 0x00#7, 0x00#7, 0x00#7, 0x00#7, 0x00#7, 0x00#7, 0x00#7, 0x00#7, 0x00#7, 0x00#7, 0x00#7, 0x00#7] ++
  [0x00#7, 0x00#7, 0x00#7, 0x00#7, 0x00#7, 0x00#7, 0x00#7, 0x00#7, 0x00#7, 0x00#7, 0x00#7, 0x00#7, 0x00#7, 0x00#7, 0x00#7, 0x00#7] ++
  [0x00#7, 0x00#7, 0x00#7, 0x00#7, 0x00#7, 0x00#7, 0x00#7, 0x00#7, 0x00#7, 0x00#7, 0x00#7, 0x00#7, 0x00#7, 0x00#7, 0x00#7, 0x00#7] ++
  [0x00#7, 0x00#7, 0x00#7, 0x00#7, 0x00#7, 0x00#7, 0x00#7, 0x00#7, 0x00#7, 0x00#7, 0x00#7, 0x00#7, 0x00#7, 0x00#7, 0x00#7, 0x00#7] ++
  [0x00#7, 0x00#7, 0x00#7, 0x00#7, 0x00#7, 0x00#7, 0x00#7, 0x00#7, 0x00#7, 0x00#7, 0x00#7, 0x00#7, 0x00#7, 0x00#7, 0x00#7, 0x00#7] ++
  [0x00#7, 0x00#7, 0x00#7, 0x00#7, 0x00#7, 0x00#7, 0x00#7, 0x00#7, 0x00#7, 0x00#7, 0x00#7, 0x00#7, 0x00#7, 0x00#7, 0x00#7, 0x00#7] ++
  [0x00#7, 0x00#7, 0x00#7, 0x00#7, 0x00#7, 0x00#7, 0x00#7, 0x00#7, 0x00#7, 0x00#7, 0x00#7, 0x00#7, 0x00#7, 0x00#7, 0x00#7, 0x00#7] ++
  [0x00#7, 0x00#7, 0x00#7, 0x00#7, 0x00#7, 0x00#7, 0x00#7, 0x00#7, 0x00#7, 0x00#7, 0x00#7, 0x00#7, 0x00#7, 0x00#7, 0x00#7, 0x00#7] ++
  [0x00#7, 0x00#7, 0x00#7, 0x00#7, 0x00#7, 0x00#7, 0x00#7, 0x00#7, 0x00#7, 0x00#7, 0x00#7, 0x00#7, 0x00#7, 0x00#7, 0x00#7, 0x00#7]

/-- R5: the reference values of every parameter. -/
def refConfig : Config :=
  { cap := 512
    kmapNormal := refKmapNormal
    kmapShift := refKmapShift
    kmapCtl := refKmapCtl
    shiftCode := refShiftCode
    toggleCode := refToggleCode
    keyDel := 0xE9#8
    resetPort := 0x0092#16
    resetCmd := 0x03#8
    pic1Cmd := 0x0020#16
    pic1Data := 0x0021#16
    pic2Cmd := 0x00A0#16
    pic2Data := 0x00A1#16
    kbcData := 0x0060#16
    kbcStatus := 0x0064#16
    kbcFullBit := 0
    irqKbd := 1#8
    irqSer := 4#8
    icw1 := 0x11#8
    icw3m := 0x04#8
    icw3s := 0x02#8
    icw4 := 0x03#8
    ocw3a := 0x68#8
    ocw3b := 0x0A#8
    imaskReset := 0xFFFB#16 }

end Sys2Proof.Machine
end

