-- ==== Sys2Proof/Machine/State.lean ====
section
/-! DEFINITION. The machine's state (spec 10_state R20 to R43), the reasons a step can stop (60_exceptions R200,
R201), and the state after reset (R42, R230).  The block has no register file and no program counter (R20, R21); it runs
the commands the host presents, which wait in `port`. -/

namespace Sys2Proof.Machine

/-- One I/O byte write `IOW(port, value)` (R64). -/
structure IOW where
  port : Port
  value : Byte
deriving DecidableEq, Repr

/-- What the outside world can present to the block next. -/
inductive HostInput where
  /-- A 16-bit command word on the command port (R60 item 3, R80). -/
  | command (w : Word)
  /-- Commands that arrive in one clock cycle (R71): a `POP` or none, a `SER_IN` or none, a `KBD_IN` or none. -/
  | together (pop : Bool) (ser : Option Byte) (kbd : Option Byte)
  /-- The reset input (R230). -/
  | reset
  /-- A power cycle: "Power-on is a reset" (R230), and nothing survives it (R214). -/
  | powerOn
deriving DecidableEq, Repr

/-- The state.  The first ten fields are the block's own (R22, R29, R40, R41).  `port` is the host's command stream (R21, R70).  `past` and
`draw` are the model's own: with `out` they give the state of the two external controllers (R39, R207). -/
structure State where
  /-- The parameters and the decoder's tables: read-only constants of the block (R5, R29). -/
  cfg : Config
  /-- `MOD`, the keyboard modifier state (R23). -/
  mod : ModBits
  /-- `HALT`, a reset request has been raised (R28). -/
  halt : Bool
  /-- `BUF`, the ring storage: slot number and byte, slots rising, no entry equal to `unwrittenSlot` (R30, R60 item 1). -/
  buf : List Host.Cell
  /-- `WPTR`, in `[0, 2*CAP)` (R31). -/
  wptr : Nat
  /-- `RPTR`, in `[0, 2*CAP)` (R31). -/
  rptr : Nat
  /-- `IMASK`, the cached interrupt mask; bit `n` is IRQ line `n`, 1 is masked (R35). -/
  imask : Word
  /-- `INIT`, the controllers have been programmed (R36). -/
  init : Bool
  /-- `OUT`, the I/O writes since reset, oldest first (R40, R64). -/
  out : List IOW
  /-- `RESP`, the response of the most recent command that returned one (R41, R88). -/
  resp : Word
  /-- The inputs the host presents, next one first (R21, R70). -/
  port : List HostInput
  /-- The I/O writes made since power-on and before the last reset, oldest first: a reset empties `OUT` and leaves the controllers as they were
  (R230). -/
  past : List IOW
  /-- Which draw of `Config.powerOnPic` the controllers' power-on state is (R39); a power cycle advances it. -/
  draw : Nat
deriving DecidableEq, Repr

/-- The block raises no fault of its own (R200, "The block has no `fault` outcome", 93_implementation_defined); the one fault of the model is an
access to a slot that does not exist. -/
inductive Fault where
  /-- Raised by `ringRead` and `ringWrite` for a slot number `i >= CAP` (R61: `0 <= i < CAP`).  No command reaches it while `CAP >= 1` (R5, R62).
  Safe: it stops a run of an illegal parameter (notes/assumptions/11). -/
  | noSuchSlot (i : Nat)
deriving DecidableEq, Repr

/-- The refusals of R200, R201. -/
inductive Refusal where
  /-- An instruction of the opcode table that has no meaning yet; no arm of `exec` answers it.  Safe: the run stops. -/
  | notModelled (mnemonic : String)
  /-- Outcome 2, `Refused(Reserved)`: raised by the command port for a reserved word (R85, R86, R201), with the word.  Safe: the run stops
  where an implementation ignores the word (notes/assumptions/5). -/
  | reserved (w : Word) (why : ReservedWhy)
  /-- Outcome 3, `Refused(Halted)`: raised by the command port for any word while `HALT` is 1 (R28, R201), with the word.  Safe: the run stops, as R231 says
  (notes/assumptions/6). -/
  | halted (w : Word)
deriving DecidableEq, Repr

/-- What a ring slot reads as that nothing has written since reset: R42 leaves it unspecified and I2 of 93_implementation_defined lets a model
fix it to zero (DESIGN CHOICE, notes/assumptions/1). -/
def unwrittenSlot : Byte := 0x00#8

/-- The reset values of R42, for a machine with parameters `c`.  The block's own fields only: `port`, `past` and `draw` are given.  -/
def State.resetWith (c : Config) (port : List HostInput) (past : List IOW) (draw : Nat) : State :=
  { cfg := c
    mod := 0x00#7
    halt := false
    buf := []
    wptr := 0
    rptr := 0
    imask := c.imaskReset
    init := false
    out := []
    resp := 0x0000#16
    port := port
    past := past
    draw := draw }

/-- The machine after power-on (R42, R230) with the reference parameters of R5: it waits for the first command, no write has been made, and the controllers' state is
draw 0 (notes/assumptions/2 and 7). -/
def State.reset : State := State.resetWith refConfig [] [] 0

end Sys2Proof.Machine
end

