-- ==== Sys2Proof/Machine/Operands.lean ====
section
/-! DEFINITION. The operand forms (spec 30_encoding R83; 41_scan_decoder R134, R135; 40_irq_mask R101, R105, R107): how
each command uses its 8-bit `ARG`. -/

namespace Sys2Proof.Machine

/-- R131, R26: ESCAPE_PENDING is set in the modifier state. -/
def escapePending (m : ModBits) : Bool := m &&& 0x40#7 != 0#7

/-- R134: the lookup index of a break code, the make code unless an escape is pending. -/
def breakIndex (code : Byte) (m : ModBits) : Byte := if escapePending m then code else code &&& 0x7F#8

/-- R135: the lookup index of a make code, with bit 7 set when an escape is pending. -/
def makeIndex (code : Byte) (m : ModBits) : Byte := if escapePending m then code ||| 0x80#8 else code

/-- R83, R102: the `IRQ_ENABLE` range check compares the full 8-bit operand with 16. -/
def irqInRange (irq : Byte) : Bool := irq.toNat < NIRQ

/-- R113: the one-hot value of an IRQ line. -/
def oneHot (irq : Byte) : Word := 0x0001#16 <<< irq.toNat

/-- R107: the slave's vector base, `(base + 8) mod 256`. -/
def slaveBase (base : Byte) : Byte := base + 8#8

/-- R67: `IMASK[7:0]`, the master's byte. -/
def lowByte (v : Word) : Byte := v.extractLsb' 0 8

/-- R67: `IMASK[15:8]`, the slave's byte. -/
def highByte (v : Word) : Byte := v.extractLsb' 8 8

end Sys2Proof.Machine
end

