-- ==== Sys2Proof/Machine/Flags.lean ====
section
/-! DEFINITION. The flag computations: the modifier bits of `MOD` (spec 10_state R23 to R27; 41_scan_decoder R131, R133 to R139, R142), the interrupt mask
(40_irq_mask R101) and the `VALID` bit of a response (30_encoding R88, R89). -/

namespace Sys2Proof.Machine

/-! R131: the modifier constants. -/

def SHIFT : ModBits := 0x01#7
def CTL : ModBits := 0x02#7
def ALT : ModBits := 0x04#7
def CAPSLOCK : ModBits := 0x08#7
def NUMLOCK : ModBits := 0x10#7
def SCROLLLOCK : ModBits := 0x20#7
def E0ESC : ModBits := 0x40#7

/-- Some bit of `bits` is set in `m`. -/
def anySet (m bits : ModBits) : Bool := m &&& bits != 0#7

/-- Every bit of `bits` is set in `m`. -/
def allSet (m bits : ModBits) : Bool := m &&& bits == bits

/-- R133: the escape code sets ESCAPE_PENDING and changes no other bit. -/
def modAfterEscape (m : ModBits) : ModBits := m ||| E0ESC

/-- R134: a break code clears its held modifiers and ESCAPE_PENDING. -/
def modAfterBreak (held m : ModBits) : ModBits := m &&& ~~~(held ||| E0ESC)

/-- R135 to R137: a make code clears ESCAPE_PENDING, sets its held modifiers and flips its toggles. -/
def modAfterMake (held toggle m : ModBits) : ModBits := ((m &&& ~~~E0ESC) ||| held) ^^^ toggle

/-- R138: which of the four tables the (ctrl, shift) pair selects: 0 normal, 1 shift, 2 ctrl, 3 ctrl and shift. -/
def tableSelect (m : ModBits) : Nat := 2 * (anySet m CTL).toNat + (anySet m SHIFT).toNat

/-- R29, R150 point 1: the four tables; `KMAP[3]` is `KMAP[2]`. -/
def kmap (c : Config) (t : Nat) : List Byte :=
  match t with
  | 0 => c.kmapNormal
  | 1 => c.kmapShift
  | _ => c.kmapCtl

/-- R139: the byte is a lower-case ASCII letter. -/
def isLower (b : Byte) : Bool := 0x61 ≤ b.toNat && b.toNat ≤ 0x7A

/-- R139: the byte is an upper-case ASCII letter. -/
def isUpper (b : Byte) : Bool := 0x41 ≤ b.toNat && b.toNat ≤ 0x5A

/-- R139: with caps lock on, the case of an ASCII letter is flipped; every other byte is kept. -/
def capsFlip (m : ModBits) (c0 : Byte) : Byte :=
  if anySet m CAPSLOCK && isLower c0 then c0 - 0x20#8
  else if anySet m CAPSLOCK && isUpper c0 then c0 + 0x20#8
  else c0

/-- R142: ctrl and alt are held and the character is `KEY_DEL`. -/
def resetCombo (c : Config) (m : ModBits) (ch : Byte) : Bool := allSet m (CTL ||| ALT) && ch == c.keyDel

/-- R101: the mask with the line's bit clear. -/
def maskCleared (imask : Word) (irq : Byte) : Word := imask &&& ~~~(oneHot irq)

/-- R88: the response word with `VALID` in bit 8 and `DATA` in bits 7..0. -/
def response (valid : Bool) (data : Byte) : Word := (if valid then 0x0100#16 else 0x0000#16) ||| data.setWidth 16

/-- R89: the response of a producer: `VALID` is 1 exactly when the byte is not 0. -/
def producerResponse (b : Byte) : Word := response (b != 0#8) b

/-- R89, R174: the response of `POP`: the byte with `VALID` 1, or 0x0000 from an empty ring. -/
def popResponse : Option Byte → Word
  | none => 0x0000#16
  | some v => response true v

end Sys2Proof.Machine
end

