-- ==== Sys2Proof/Machine/Kdec.lean ====
section
/-! DEFINITION. The scan-code decoder `KDEC`, a pure function of a code, the modifier state and the tables (spec 41_scan_decoder R132 to R143). -/

namespace Sys2Proof.Machine

/-- What `KDEC` returns (R132): the next modifier state, the character (0 is "no character"), and whether the reset request fires. -/
structure Decoding where
  mod : ModBits
  char : Byte
  rst : Bool
deriving DecidableEq, Repr

/-- R132: the escape code. -/
def escapeCode : Byte := 0xE0#8

/-- Case A, the escape code (R133). -/
def kdecEscape (m : ModBits) : Decoding := { mod := modAfterEscape m, char := 0#8, rst := false }

/-- Case B, a break code (R134). -/
def kdecBreak (c : Config) (code : Byte) (m : ModBits) : Decoding :=
  { mod := modAfterBreak (Config.entry c.shiftCode (breakIndex code m)) m, char := 0#8, rst := false }

/-- Case C, the modifier state after a make code, `m3` of R137. -/
def makeMod (c : Config) (code : Byte) (m : ModBits) : ModBits :=
  modAfterMake (Config.entry c.shiftCode (makeIndex code m)) (Config.entry c.toggleCode (makeIndex code m)) m

/-- Case C, the character of a make code (R138, R139): looked up with, and flipped by, the modifier state after it. -/
def makeChar (c : Config) (code : Byte) (m : ModBits) : Byte :=
  capsFlip (makeMod c code m) (Config.entry (kmap c (tableSelect (makeMod c code m))) (makeIndex code m))

/-- Case C, a make code (R135 to R139, R142). -/
def kdecMake (c : Config) (code : Byte) (m : ModBits) : Decoding :=
  { mod := makeMod c code m
    char := makeChar c code m
    rst := resetCombo c (makeMod c code m) (makeChar c code m) }

/-- R132, R143: `KDEC`; the three cases are tested in this order, so 0xE0 is never a break. -/
def kdec (c : Config) (code : Byte) (m : ModBits) : Decoding :=
  if code = escapeCode then kdecEscape m
  else if code.getLsbD 7 then kdecBreak c code m
  else kdecMake c code m

end Sys2Proof.Machine
end

