-- ==== Sys2Proof/Machine/Ops.lean ====
section
/-! DEFINITION. The named operations over the state: the ring's storage and pointers (spec 10_state R31, R34; 20_memory R61, R62; 42_input_fifo R171, R172,
R175), the I/O writes (R64, R100), the response (R88), raising the reset request (R145) and the way out of it, the hardware reset (R230). -/

namespace Sys2Proof.Machine

/-! ### Ring storage: a list of slot and byte in one canonical form -/

/-- The form: slots strictly rising, and no entry equal to what an unlisted slot reads as. -/
def Memory.wf : List Host.Cell → Bool
  | [] => true
  | [c] => c.2 != unwrittenSlot
  | c :: d :: r => c.1 < d.1 && c.2 != unwrittenSlot && Memory.wf (d :: r)

/-- The byte of a slot; an unlisted one reads as `unwrittenSlot`. -/
def Memory.read : List Host.Cell → Nat → Byte
  | [], _ => unwrittenSlot
  | c :: r, a => if c.1 = a then c.2 else Memory.read r a

/-- Store one byte and keep the form. -/
def Memory.write : List Host.Cell → Nat → Byte → List Host.Cell
  | [], a, v => if v = unwrittenSlot then [] else [(a, v)]
  | c :: r, a, v =>
    if a < c.1 then if v = unwrittenSlot then c :: r else (a, v) :: c :: r
    else if a = c.1 then if v = unwrittenSlot then r else (a, v) :: r
    else c :: Memory.write r a v

/-! ### The ring -/

/-- R31, R182: a sum or difference of pointers, reduced to `[0, 2*CAP)`; R7: the non-negative remainder of any integer. -/
def wrap (s : State) (x : Int) : Nat := (x % (2 * (s.cfg.cap : Int))).toNat

/-- R62: the slot a pointer addresses. -/
def slot (s : State) (p : Nat) : Nat := p % s.cfg.cap

/-- R31: `FILL`. -/
def fill (s : State) : Nat := wrap s ((s.wptr : Int) - s.rptr)

/-- R31: `COUNT`, the bytes a consumer can still read. -/
def count (s : State) : Nat := min (fill s) s.cfg.cap

/-- R31: `EMPTY`. -/
def isEmpty (s : State) : Bool := fill s == 0

/-- R31: `OVERRUN`. -/
def overrun (s : State) : Bool := s.cfg.cap < fill s

/-- R61: `RingRead`, one byte of a slot in `[0, CAP)`. -/
def ringRead (i : Nat) (s : State) : Except Fault Byte :=
  if i < s.cfg.cap then .ok (Memory.read s.buf i) else .error (.noSuchSlot i)

/-- R61: `RingWrite`, one byte to a slot in `[0, CAP)`. -/
def ringWrite (i : Nat) (v : Byte) (s : State) : Except Fault State :=
  if i < s.cfg.cap then .ok { s with buf := Memory.write s.buf i v } else .error (.noSuchSlot i)

/-- R171: where a push leaves `WPTR`; when `FILL` would reach `2*CAP` it folds, so that `FILL` becomes `CAP`. -/
def pushedPtr (s : State) : Nat :=
  if fill s + 1 = 2 * s.cfg.cap then wrap s ((s.wptr : Int) + 1 + s.cfg.cap) else wrap s ((s.wptr : Int) + 1)

/-- R171: `RingPush`; it writes `BUF` and `WPTR` only. -/
def ringPush (b : Byte) (s : State) : Except Fault State :=
  match ringWrite (slot s s.wptr) b s with
  | .error f => .error f
  | .ok t => .ok { t with wptr := pushedPtr s }

/-- R172: the pointer of the oldest byte still held: on an overrun the pop skips the overwritten bytes. -/
def oldestPtr (s : State) : Nat := if overrun s then wrap s ((s.wptr : Int) + s.cfg.cap) else s.rptr

/-- R172: `RingPop`; it writes `RPTR` only, and nothing when the ring is empty. -/
def ringPop (s : State) : Except Fault (Option Byte × State) :=
  if isEmpty s then .ok (none, s)
  else match ringRead (slot s (oldestPtr s)) s with
    | .error f => .error f
    | .ok v => .ok (some v, { s with rptr := wrap s ((oldestPtr s : Int) + 1) })

/-- R175: producers push only a byte other than 0x00. -/
def pushUnit (b : Byte) (s : State) : Except Fault State := if b = 0#8 then .ok s else ringPush b s

/-- R34: the byte sequence `Q` the ring stands for, oldest first. -/
def queue (s : State) : List Byte :=
  (List.range (count s)).map fun (j : Nat) => Memory.read s.buf (slot s (wrap s ((s.wptr : Int) - count s + j)))

/-! ### I/O writes and the response -/

/-- R64: append I/O writes to the end of `OUT`, in the order given. -/
def emitAll (ws : List IOW) (s : State) : State := { s with out := s.out ++ ws }

/-- R64: `emit IOW(port, value)`. -/
def emit (p : Port) (v : Byte) (s : State) : State := emitAll [{ port := p, value := v }] s

/-- R100: `MaskWrite`, the mask's low byte to the master and then its high byte to the slave. -/
def maskWrite (s : State) : State := emit s.cfg.pic2Data (highByte s.imask) (emit s.cfg.pic1Data (lowByte s.imask) s)

/-- R88: `respond(v)`. -/
def respond (r : Word) (s : State) : State := { s with resp := r }

/-- The end of a producer command (R140, R173): push the unit if it is not 0, and respond. -/
def produce (b : Byte) (s : State) : Host.Outcome State Fault Refusal :=
  match pushUnit b s with
  | .error f => .fault f
  | .ok t => .next (respond (producerResponse b) t)

/-! ### The reset request and the hardware reset -/

/-- R145: `raise ResetRequest(m')`, the one exceptional event of the block: the reset write, the modifier state of the code that raised it, and `HALT`; no push
and no response.  Here it is a next state; the run ends at it in `issue` and `runStream` (R231; notes/assumptions/6). -/
def resetRequest (m : ModBits) (s : State) : State :=
  { emit s.cfg.resetPort s.cfg.resetCmd s with mod := m, halt := true }

/-- R230: the reset input.  Every field takes its value of R42 and `OUT` is emptied; the parameters, the host's stream and the external controllers stay. -/
def hardwareReset (s : State) : State := State.resetWith s.cfg s.port (s.past ++ s.out) s.draw

/-- R230, R214, R39: power-on is a reset, and the controllers' state is a new draw. -/
def powerCycle (s : State) : State := State.resetWith s.cfg s.port [] (s.draw + 1)

end Sys2Proof.Machine
end

