-- ==== Sys2Proof/Machine/Fifo.lean ====
section
/-! DEFINITION. The meanings of `SER_IN` and `POP` (spec 42_input_fifo R173, R174). -/

namespace Sys2Proof.Machine

/-- R173: push the serial byte, as delivered, if it is not 0. -/
def execSerIn (b : Byte) (s : State) : Host.Outcome State Fault Refusal := produce b s

/-- R174: take the oldest byte still held; an empty ring is no error. -/
def execPop (s : State) : Host.Outcome State Fault Refusal :=
  match ringPop s with
  | .error f => .fault f
  | .ok (v, t) => .next (respond (popResponse v) t)

end Sys2Proof.Machine
end

