-- ==== Sys2Proof/Machine/Keyboard.lean ====
section
/-! DEFINITION. The meaning of `KBD_IN` (spec 41_scan_decoder R140). -/

namespace Sys2Proof.Machine

/-- R140: decode one scan code; the reset request ends the command (R145), else `MOD` is written and the character pushed if it is not 0. -/
def execKbdIn (code : Byte) (s : State) : Host.Outcome State Fault Refusal :=
  let d := kdec s.cfg code s.mod
  if d.rst then .next (resetRequest d.mod s) else produce d.char { s with mod := d.mod }

end Sys2Proof.Machine
end

