-- ==== Sys2Proof/Machine/Mask.lean ====
section
/-! DEFINITION. The meanings of `IRQ_ENABLE` and `PIC_INIT` (spec 40_irq_mask R101 to R112). -/

namespace Sys2Proof.Machine

/-- R101, R102: clear the line's bit, and write both controllers if they have been programmed; a line of 16 or more changes nothing. -/
def execIrqEnable (irq : Byte) (s : State) : Host.Outcome State Fault Refusal :=
  if irqInRange irq then
    let t := { s with imask := maskCleared s.imask irq }
    .next (respond 0x0000#16 (if t.init then maskWrite t else t))
  else .next (respond 0x0000#16 s)

/-- R105: the sixteen writes of `PIC_INIT`, in order. -/
def picSequence (c : Config) (base : Byte) (imask : Word) : List IOW :=
  [ { port := c.pic1Data, value := 0xFF#8 },
    { port := c.pic2Data, value := 0xFF#8 },
    { port := c.pic1Cmd, value := c.icw1 },
    { port := c.pic1Data, value := base },
    { port := c.pic1Data, value := c.icw3m },
    { port := c.pic1Data, value := c.icw4 },
    { port := c.pic2Cmd, value := c.icw1 },
    { port := c.pic2Data, value := slaveBase base },
    { port := c.pic2Data, value := c.icw3s },
    { port := c.pic2Data, value := c.icw4 },
    { port := c.pic1Cmd, value := c.ocw3a },
    { port := c.pic1Cmd, value := c.ocw3b },
    { port := c.pic2Cmd, value := c.ocw3a },
    { port := c.pic2Cmd, value := c.ocw3b },
    { port := c.pic1Data, value := lowByte imask },
    { port := c.pic2Data, value := highByte imask } ]

/-- R104, R112: program both controllers and apply the cached mask; `IMASK` itself is not changed. -/
def execPicInit (base : Byte) (s : State) : Host.Outcome State Fault Refusal :=
  .next (respond 0x0000#16 (emitAll (picSequence s.cfg base s.imask) { s with init := true }))

end Sys2Proof.Machine
end

