-- ==== Sys2Proof/Machine/Dispatch.lean ====
section
/-! DEFINITION. One arm per command: the command's own rule (spec 60_exceptions R203). -/

namespace Sys2Proof.Machine

def exec (i : Instr) (s : State) : Host.Outcome State Fault Refusal :=
  match i with
  | .kbdIn code => Sys2Proof.Machine.execKbdIn code s
  | .serIn b => Sys2Proof.Machine.execSerIn b s
  | .pop => Sys2Proof.Machine.execPop s
  | .irqEnable irq => Sys2Proof.Machine.execIrqEnable irq s
  | .picInit base => Sys2Proof.Machine.execPicInit base s

end Sys2Proof.Machine
end

