-- ==== Sys2Proof/Machine/Port.lean ====
section
/-! DEFINITION. The command port: what the block does with each input the host presents (spec 20_memory R70, R71; 60_exceptions R200, R201, R203; 70_reset_and_hazards R230), and
the run of a sequence of commands. -/

namespace Sys2Proof.Machine

/-- R201, R203: one command word.  `Refused(Halted)` comes first, then `Refused(Reserved)`, then the command's own rule. -/
def runWord (w : Word) (s : State) : Host.Outcome State Fault Refusal :=
  if s.halt then .refused (.halted w)
  else match decode w with
    | .reserved why => .refused (.reserved w why)
    | .command i => exec i s

/-- R71: the serial order of commands that arrive in one cycle: `POP`, then `SER_IN`, then `KBD_IN`. -/
def serialOrder (pop : Bool) (ser kbd : Option Byte) : List Instr :=
  (if pop then [.pop] else []) ++ (ser.map Instr.serIn).toList ++ (kbd.map Instr.kbdIn).toList

/-- The input that presents a command. -/
def present (i : Instr) : HostInput := .command (encode i)

/-- One input of the host, taken from the stream.  Commands of one cycle are put back in their serial order, to be run one by one. -/
def takeInput (x : HostInput) (s : State) : Host.Outcome State Fault Refusal :=
  match x with
  | .command w => runWord w s
  | .together pop ser kbd => .next { s with port := (serialOrder pop ser kbd).map present ++ s.port }
  | .reset => .next (hardwareReset s)
  | .powerOn => .next (powerCycle s)

/-- R70, R230: the block takes the next input of the stream; while none is presented it waits, and nothing changes. -/
def takeNext (s : State) : Host.Outcome State Fault Refusal :=
  match s.port with
  | [] => .next s
  | x :: rest => takeInput x { s with port := rest }

/-- The outcome codes of R200. -/
inductive OutcomeCode where
  | done
  | resetRequest
  | refusedReserved
  | refusedHalted
deriving DecidableEq, Repr

/-- R200: the outcome of one command word; none where the model's own fault stops it. -/
def outcomeCode (w : Word) (s : State) : Option OutcomeCode :=
  match runWord w s with
  | .next t => some (if t.halt then .resetRequest else .done)
  | .refused (.halted _) => some .refusedHalted
  | .refused (.reserved _ _) => some .refusedReserved
  | .refused _ => none
  | .fault _ => none

/-- R200: the number of an outcome. -/
def OutcomeCode.number : OutcomeCode → Nat
  | .done => 0
  | .resetRequest => 1
  | .refusedReserved => 2
  | .refusedHalted => 3

/-- How a run ends (R200, R201, R231).  `done`: everything it was given has run, with what it answers and the state it leaves.  `resetRequest`: the terminal outcome of R231 and D16, distinct from a fault,
with the state in which the request left the block; nothing is said of what follows.  `refused`, `fault`: the run stopped there. -/
inductive RunEnd (α : Type) where
  | done (answer : α) (s : State)
  | resetRequest (s : State)
  | refused (r : Refusal)
  | fault (f : Fault)
deriving DecidableEq, Repr

/-- The same end with another answer. -/
def RunEnd.mapAnswer {α β : Type} (f : α → β) : RunEnd α → RunEnd β
  | .done a s => .done (f a) s
  | .resetRequest s => .resetRequest s
  | .refused r => .refused r
  | .fault e => .fault e

/-- R70, R231: commands issued one after another, with the response of each; the run ends at the reset request, and no command after it runs. -/
def issue : List Instr → State → RunEnd (List Word)
  | [], s => .done [] s
  | i :: is, s =>
    match runWord (encode i) s with
    | .next t => if t.halt then .resetRequest t else (issue is t).mapAnswer fun rs => t.resp :: rs
    | .fault f => .fault f
    | .refused r => .refused r

end Sys2Proof.Machine
end

