-- ==== Sys2Proof/Machine/Step.lean ====
section
/-! DEFINITION. One step of the machine: the block takes the next input the host presents (spec 10_state R21; 20_memory R70). -/

namespace Sys2Proof.Machine

/-- One step.  There is no program counter (R21): the position in the command stream is the host's, and the next command is the head of `port`. -/
def step (s : State) : Host.Outcome State Fault Refusal := takeNext s

/-- The state with the word of an instruction, its bits as the opcode table numbers them, presented on the command port ahead of every other input, so
that the next step takes exactly it. -/
def State.withFetchWord (s : State) (nbits w : Nat) : State :=
  { s with port := HostInput.command (tableWord nbits w) :: s.port }

end Sys2Proof.Machine
end

