-- ==== Sys2Proof/Machine/Asm.lean ====
section
/-! DEFINITION. The assembler's text (spec 30_encoding R90): one command per line, a mnemonic and, for every command but `POP`, one operand.  A line is a list of characters.
What R90 does not state is in notes/assumptions/16. -/

namespace Sys2Proof.Machine

/-- What one line of assembler text is. -/
inductive AsmLine where
  /-- Nothing, or only a comment. -/
  | blank
  | command (i : Instr)
  /-- An assembly error. -/
  | error
deriving DecidableEq, Repr

/-- The value of a digit in a base of at most 16. -/
def digitValue (base : Nat) (c : Char) : Option Nat :=
  let n := c.toNat
  let v :=
    if 48 ≤ n ∧ n ≤ 57 then n - 48
    else if 65 ≤ n ∧ n ≤ 70 then n - 55
    else if 97 ≤ n ∧ n ≤ 102 then n - 87
    else 16
  if v < base then some v else none

/-- The digits at the head of a text, as a number after `acc`, and the rest. -/
def readDigits (base acc : Nat) : List Char → Nat × List Char
  | [] => (acc, [])
  | c :: r =>
    match digitValue base c with
    | some v => readDigits base (base * acc + v) r
    | none => (acc, c :: r)

/-- At least one digit. -/
def readNat (base : Nat) (t : List Char) : Option (Nat × List Char) :=
  match t with
  | [] => none
  | c :: _ =>
    match digitValue base c with
    | none => none
    | some _ => some (readDigits base 0 t)

/-- R90: a number, `0x1E` or `30`. -/
def readNumber (t : List Char) : Option (Nat × List Char) :=
  match t with
  | '0' :: 'x' :: r => readNat 16 r
  | _ => readNat 10 t

/-- R90: an operand, a number or, where `literal` allows it, a character literal of one ASCII character. -/
def readOperand (literal : Bool) (t : List Char) : Option (Nat × List Char) :=
  match t with
  | '\'' :: c :: '\'' :: r => if literal && c.toNat < 128 then some (c.toNat, r) else none
  | _ => readNumber t

def skipBlanks : List Char → List Char
  | ' ' :: r => skipBlanks r
  | '\t' :: r => skipBlanks r
  | t => t

/-- R90: the rest of a line holds only blanks and a comment after `;`. -/
def lineEnds (t : List Char) : Bool :=
  match skipBlanks t with
  | [] => true
  | c :: _ => c == ';'

/-- A mnemonic at the head of a text, and the rest. -/
def dropMnemonic : List Char → List Char → Option (List Char)
  | [], t => some t
  | _ :: _, [] => none
  | m :: ms, c :: t => if m = c then dropMnemonic ms t else none

def mnKbdIn : List Char := ['K', 'B', 'D', '_', 'I', 'N']
def mnSerIn : List Char := ['S', 'E', 'R', '_', 'I', 'N']
def mnPop : List Char := ['P', 'O', 'P']
def mnIrqEnable : List Char := ['I', 'R', 'Q', '_', 'E', 'N', 'A', 'B', 'L', 'E']
def mnPicInit : List Char := ['P', 'I', 'C', '_', 'I', 'N', 'I', 'T']

/-- R90: the operand of a command and the end of its line; a number outside 0 to 255 is an assembly error. -/
def withOperand (literal : Bool) (make : Byte → Instr) (t : List Char) : AsmLine :=
  match t with
  | [] => .error
  | c :: _ =>
    if c = ' ' ∨ c = '\t' then
      match readOperand literal (skipBlanks t) with
      | none => .error
      | some (n, rest) => if n < 256 ∧ lineEnds rest then .command (make (BitVec.ofNat 8 n)) else .error
    else .error

/-- The commands with an operand, by mnemonic. -/
def operandCommands : List (List Char × Bool × (Byte → Instr)) :=
  [(mnKbdIn, false, .kbdIn), (mnSerIn, true, .serIn), (mnIrqEnable, false, .irqEnable), (mnPicInit, false, .picInit)]

/-- The first of the commands whose mnemonic heads the text. -/
def pickCommand (t : List Char) : List (List Char × Bool × (Byte → Instr)) → AsmLine
  | [] => .error
  | (m, literal, make) :: rest =>
    match dropMnemonic m t with
    | some t' => withOperand literal make t'
    | none => pickCommand t rest

/-- R90: one line of assembler text. -/
def assembleLine (t : List Char) : AsmLine :=
  if lineEnds t then .blank
  else match dropMnemonic mnPop (skipBlanks t) with
    | some rest => if lineEnds rest then .command .pop else .error
    | none => pickCommand (skipBlanks t) operandCommands

/-- One hexadecimal digit. -/
def hexDigit (n : Nat) : Char := if n < 10 then Char.ofNat (48 + n) else Char.ofNat (55 + n)

/-- A byte as `0xNN`. -/
def hexByte (b : Byte) : List Char := ['0', 'x', hexDigit (b.toNat / 16), hexDigit (b.toNat % 16)]

/-- The text of a command, its operand as a number. -/
def disassemble : Instr → List Char
  | .kbdIn code => mnKbdIn ++ ' ' :: hexByte code
  | .serIn b => mnSerIn ++ ' ' :: hexByte b
  | .pop => mnPop
  | .irqEnable irq => mnIrqEnable ++ ' ' :: hexByte irq
  | .picInit base => mnPicInit ++ ' ' :: hexByte base

end Sys2Proof.Machine
end

