-- ==== Sys2Proof/Machine/Pic.lean ====
section
/-! DEFINITION. The reference view of the two external interrupt controllers (spec 60_exceptions R204 to R208; 10_state R39): their state as the block's writes leave it,
which lines reach the processor, and the vectors. -/

namespace Sys2Proof.Machine

/-- R207: a write to a controller's command port.  Bit 4 marks ICW1, which clears the mask; OCW2 and OCW3 change nothing of the view. -/
def picCommand (v : Byte) (p : Pic) : Pic :=
  if v.getLsbD 4 then { p with icw1 := v, imr := 0x00#8, phase := .icw2 } else p

/-- R207: a write to a controller's data port.  `icw1[1]` clear says an ICW3 follows, `icw1[0]` set that an ICW4 does; in phase `READY` the byte is the mask (OCW1).  The ICW2 is
kept as the vector base (notes/assumptions/8). -/
def picData (v : Byte) (p : Pic) : Pic :=
  match p.phase with
  | .icw2 =>
    { p with
      vecBase := v
      phase := if !p.icw1.getLsbD 1 then .icw3 else if p.icw1.getLsbD 0 then .icw4 else .ready }
  | .icw3 => { p with phase := if p.icw1.getLsbD 0 then .icw4 else .ready }
  | .icw4 => { p with phase := .ready }
  | .ready => { p with imr := v }

/-- R215: the command port of a controller. -/
def cmdPort (c : Config) : PicUnit → Port
  | .master => c.pic1Cmd
  | .slave => c.pic2Cmd

/-- R215: the data port of a controller. -/
def dataPort (c : Config) : PicUnit → Port
  | .master => c.pic1Data
  | .slave => c.pic2Data

/-- How one controller takes one I/O write; a write to another port does not reach it. -/
def picTake (c : Config) (u : PicUnit) (p : Pic) (w : IOW) : Pic :=
  if w.port = cmdPort c u then picCommand w.value p
  else if w.port = dataPort c u then picData w.value p
  else p

/-- R39, R207: a controller's state: its power-on draw and then every write since power-on, in order. -/
def State.pic (s : State) (u : PicUnit) : Pic := (s.past ++ s.out).foldl (picTake s.cfg u) (Config.powerOnPic s.draw u)

/-- R204: the controller of a line, and the line's bit there. -/
def lineUnit (n : Nat) : PicUnit := if n < 8 then .master else .slave

/-- R205: the masks let line `n` (0 to 15) through to the processor: its bit in the controller's mask is 0, and for a slave line the master's cascade bit too.  R205 says that a line reaches the processor only if
this holds; that the masks stop nothing else is the model's reading (notes/assumptions/22). -/
def lineReaches (s : State) (n : Nat) : Bool :=
  n < NIRQ && !((s.pic (lineUnit n)).imr.getLsbD (n % 8)) && (n < 8 || !((s.pic .master).imr.getLsbD CASCADE))

/-- R206: the vector of line `n` for a `PIC_INIT` operand `base`; bits 2..0 of a base are taken as 0. -/
def vectorOf (base : Byte) (n : Nat) : Byte :=
  if n < 8 then (base &&& 0xF8#8) + BitVec.ofNat 8 n else (slaveBase (base &&& 0xF8#8)) + BitVec.ofNat 8 (n - 8)

/-- R206, R107: the vector the controller of line `n` delivers, from the ICW2 it was given. -/
def State.vector (s : State) (n : Nat) : Byte :=
  ((s.pic (lineUnit n)).vecBase &&& 0xF8#8) + BitVec.ofNat 8 (n % 8)

end Sys2Proof.Machine
end

