-- ==== Sys2Proof/Machine/HostSeq.lean ====
section
/-! DEFINITION. What the host does to drive the block (spec 30_encoding R91; 42_input_fifo R176, R177; 60_exceptions R211; 70_reset_and_hazards R232): the drain loops, the
pseudo-instructions, the interrupt handlers and the boot sequence, each as the list of the host's actions.  They are host sequences, not commands, and have no encoding (notes/assumptions/14). -/

namespace Sys2Proof.Machine

/-- One action of the host. -/
inductive HostAction where
  /-- Read a byte from an I/O port of the keyboard controller. -/
  | readPort (p : Port)
  /-- Read the serial port's line status. -/
  | readLineStatus
  /-- Read one received byte from the serial port. -/
  | readSerial
  /-- Issue a command to the block. -/
  | issue (i : Instr)
  /-- Drive the block's reset input (R230). -/
  | pulseReset
  /-- Enable or disable interrupts at the processor. -/
  | setInterrupts (on : Bool)
deriving DecidableEq, Repr

/-- What an action presents to the block, if anything. -/
def HostAction.input : HostAction → Option HostInput
  | .readPort _ => none
  | .readLineStatus => none
  | .readSerial => none
  | .issue i => some (present i)
  | .pulseReset => some .reset
  | .setInterrupts _ => none

/-- The block's inputs that a list of actions presents, in order (R70). -/
def inputsOf (as : List HostAction) : List HostInput := as.filterMap HostAction.input

/-- The commands among a list of actions. -/
def commandsOf (as : List HostAction) : List Instr :=
  as.filterMap fun a => match a with
    | .issue i => some i
    | .readPort _ => none
    | .readLineStatus => none
    | .readSerial => none
    | .pulseReset => none
    | .setInterrupts _ => none

/-- R176: the keyboard drain, `DRAIN_KBD`.  `reads` is what the keyboard controller answers: for each turn of the loop the status byte and the data byte.
The loop ends at the first status whose "output buffer full" bit is 0; past the end of `reads` the controller reports no more input. -/
def drainKbd (c : Config) : List (Byte × Byte) → List HostAction
  | [] => [.readPort c.kbcStatus]
  | (status, data) :: rest =>
    if status.getLsbD c.kbcFullBit then
      .readPort c.kbcStatus :: .readPort c.kbcData :: .issue (.kbdIn data) :: drainKbd c rest
    else [.readPort c.kbcStatus]

/-- R176: the serial drain of a port that is present: for each turn, the line status's "data ready" bit and the received byte. -/
def drainSerPort : List (Bool × Byte) → List HostAction
  | [] => [.readLineStatus]
  | (ready, data) :: rest =>
    if ready then .readLineStatus :: .readSerial :: .issue (.serIn data) :: drainSerPort rest
    else [.readLineStatus]

/-- R176, R202: the serial drain, `DRAIN_SER`; if the port is absent the loop issues nothing. -/
def drainSer (portPresent : Bool) (reads : List (Bool × Byte)) : List HostAction :=
  if portPresent then drainSerPort reads else []

/-- R177: `GET_CHAR`, the serial drain, then the keyboard drain, then `POP`. -/
def getChar (c : Config) (portPresent : Bool) (ser : List (Bool × Byte)) (kbd : List (Byte × Byte)) : List HostAction :=
  drainSer portPresent ser ++ drainKbd c kbd ++ [.issue .pop]

/-- R91: the pseudo-instructions, with what the devices answer while they run. -/
inductive Pseudo where
  | kbdSeq (codes : List Byte)
  | drainKbd (reads : List (Byte × Byte))
  | drainSer (portPresent : Bool) (reads : List (Bool × Byte))
  | getChar (portPresent : Bool) (ser : List (Bool × Byte)) (kbd : List (Byte × Byte))
  | onKbdIrq (reads : List (Byte × Byte))
  | onSerIrq (portPresent : Bool) (reads : List (Bool × Byte))
deriving DecidableEq, Repr

/-- R91: the expansion of a pseudo-instruction. -/
def Pseudo.expand (c : Config) : Pseudo → List HostAction
  | .kbdSeq codes => codes.map fun k => .issue (.kbdIn k)
  | .drainKbd reads => Sys2Proof.Machine.drainKbd c reads
  | .drainSer present reads => Sys2Proof.Machine.drainSer present reads
  | .getChar present ser kbd => Sys2Proof.Machine.getChar c present ser kbd
  | .onKbdIrq reads => Sys2Proof.Machine.drainKbd c reads
  | .onSerIrq present reads => Sys2Proof.Machine.drainSer present reads

/-- R211: the handler contract: an interrupt on the keyboard's line runs `DRAIN_KBD`, one on the serial line `DRAIN_SER`; no other line has a handler here.  R5 lets the two lines be one and R211 leaves the routing
outside: on a shared line both handlers run, the keyboard's first (DESIGN CHOICE, notes/assumptions/21). -/
def onInterrupt (c : Config) (line : Byte) (portPresent : Bool) (ser : List (Bool × Byte)) (kbd : List (Byte × Byte)) :
    List HostAction :=
  (if line = c.irqKbd then (Pseudo.onKbdIrq kbd).expand c else []) ++
    if line = c.irqSer then (Pseudo.onSerIrq portPresent ser).expand c else []

/-- R232: the boot order: reset with interrupts disabled, drain and arm the keyboard and the serial line if it is present, program the controllers, and only then enable
interrupts. -/
def bootSequence (c : Config) (portPresent : Bool) (kbd : List (Byte × Byte)) (base : Byte) : List HostAction :=
  [.setInterrupts false, .pulseReset] ++ drainKbd c kbd ++ [.issue (.irqEnable c.irqKbd)] ++
    (if portPresent then [.issue (.irqEnable c.irqSer)] else []) ++ [.issue (.picInit base), .setInterrupts true]

end Sys2Proof.Machine
end

