-- ==== Sys2Proof/Machine/Run.lean ====
section
/-! DEFINITION. Runs (spec 70_reset_and_hazards R231; 42_input_fifo R177): the host's stream run to the reset request at most, and `GET_CHAR` with its result. -/

namespace Sys2Proof.Machine

/-- R231, D16: at most `n` steps of the host's stream.  The step that raises the reset request ends the run, whatever the stream still holds. -/
def runStream : Nat → State → RunEnd Unit
  | 0, s => .done () s
  | n + 1, s =>
    match step s with
    | .next t => if !s.halt && t.halt then .resetRequest t else runStream n t
    | .fault f => .fault f
    | .refused r => .refused r

/-- R177: what `GET_CHAR` does to the block, with what the devices answer meanwhile, and its result, `RESP[7:0]` of its `POP` (0 is "none available").  A reset request in its drain ends the run, and there
is no result. -/
def getCharRun (portPresent : Bool) (ser : List (Bool × Byte)) (kbd : List (Byte × Byte)) (s : State) : RunEnd Byte :=
  match issue (commandsOf (getChar s.cfg portPresent ser kbd)) s with
  | .done _ t => .done (lowByte t.resp) t
  | .resetRequest t => .resetRequest t
  | .refused r => .refused r
  | .fault f => .fault f

end Sys2Proof.Machine
end

