-- ==== Sys2Proof/Safety.lean ====
section
/-! DEFINITION. The terms in which claims about the machine are made: the invariants of the ring, the mask, the response and the controllers (spec 10_state R33, R37; 30_encoding R88;
40_irq_mask R114), and the abstract console that the block refines (10_state R34; 42_input_fifo R183). -/

namespace Sys2Proof.Machine

/-! ### Invariants -/

/-- R31, R182: both pointers are in `[0, 2*CAP)`. -/
abbrev PointersInRange (s : State) : Prop := s.wptr < 2 * s.cfg.cap ∧ s.rptr < 2 * s.cfg.cap

/-- R30, R61: the storage is in its one form and lists slots in `[0, CAP)` only. -/
abbrev StorageOk (s : State) : Prop := Memory.wf s.buf = true ∧ ∀ c ∈ s.buf, c.1 < s.cfg.cap

/-- R33 (c): no byte a consumer can read is 0x00. -/
abbrev QueueNonzero (s : State) : Prop := ∀ b ∈ queue s, b ≠ 0#8

/-- R33: the ring's invariant. -/
abbrev RingInv (s : State) : Prop := 0 < s.cfg.cap ∧ PointersInRange s ∧ StorageOk s ∧ QueueNonzero s

/-- R37: the cascade line's bit is clear. -/
abbrev CascadeOpen (s : State) : Prop := s.imask.getLsbD CASCADE = false

/-- R88: bits 15..9 of the response are 0, and `VALID` is 1 exactly when `DATA` is not 0 (R89, R175). -/
abbrev ResponseOk (s : State) : Prop :=
  s.resp.extractLsb' 9 7 = 0#7 ∧ (s.resp.getLsbD 8 = true ↔ s.resp.extractLsb' 0 8 ≠ 0#8)

/-- The invariant of the machine. -/
abbrev Inv (s : State) : Prop := s.cfg.wf = true ∧ RingInv s ∧ CascadeOpen s ∧ ResponseOk s

/-- R67: the byte of the mask that belongs to a controller. -/
def maskByte (v : Word) : PicUnit → Byte
  | .master => lowByte v
  | .slave => highByte v

/-- R114: once the controllers are programmed, each is ready and its mask register is its byte of `IMASK`. -/
def ControllersAgree (s : State) : Prop :=
  s.init = true → ∀ u, (s.pic u).phase = .ready ∧ (s.pic u).imr = maskByte s.imask u

/-! ### The abstract console: a modifier state and a bounded queue -/

/-- R183: push into a queue of at most `cap` bytes, dropping the oldest when it is full. -/
def boundedPush (cap : Nat) (b : Byte) (q : List Byte) : List Byte := if q.length = cap then q.tail ++ [b] else q ++ [b]

/-- R175: a producer's push. -/
def boundedUnit (cap : Nat) (b : Byte) (q : List Byte) : List Byte := if b = 0#8 then q else boundedPush cap b q

/-- The abstract console (R34): what later responses depend on. -/
structure Console where
  mod : ModBits
  q : List Byte
deriving DecidableEq, Repr

/-- The response and next state of the abstract console; a command that raises the reset request has no response (R88, R145). -/
def Console.step (c : Config) (i : Instr) (k : Console) : Option Word × Console :=
  match i with
  | .kbdIn code =>
    let d := kdec c code k.mod
    if d.rst then (none, { k with mod := d.mod })
    else (some (producerResponse d.char), { mod := d.mod, q := boundedUnit c.cap d.char k.q })
  | .serIn b => (some (producerResponse b), { k with q := boundedUnit c.cap b k.q })
  | .pop =>
    match k.q with
    | [] => (some 0x0000#16, k)
    | h :: t => (some (0x0100#16 ||| h.setWidth 16), { k with q := t })
  | .irqEnable _ => (some 0x0000#16, k)
  | .picInit _ => (some 0x0000#16, k)

/-- A sequence of commands at the abstract console: the responses, or none where the reset request ends it (R231), and the console at the end. -/
def Console.issue (c : Config) : List Instr → Console → Option (List Word) × Console
  | [], k => (some [], k)
  | i :: is, k =>
    match Console.step c i k with
    | (none, k') => (none, k')
    | (some r, k') => ((Console.issue c is k').1.map fun rs => r :: rs, (Console.issue c is k').2)

/-- R34: the abstract console of a state. -/
def State.console (s : State) : Console := { mod := s.mod, q := queue s }

/-- What the abstract console sees of the end of a run; none where the run stopped with a refusal or a fault. -/
def RunEnd.seen : RunEnd (List Word) → Option (Option (List Word) × Console)
  | .done rs s => some (some rs, s.console)
  | .resetRequest s => some (none, s.console)
  | .refused _ => none
  | .fault _ => none

/-! ### What a sequence of commands pushes, pops and unmasks -/

/-- The characters and serial bytes a sequence pushes, from modifier state `m` (R140, R173, R175); nothing from the reset request on (R145). -/
def pushedBytes (c : Config) : ModBits → List Instr → List Byte
  | _, [] => []
  | m, .kbdIn code :: is =>
    let d := kdec c code m
    if d.rst then [] else (if d.char = 0#8 then [] else [d.char]) ++ pushedBytes c d.mod is
  | m, .serIn b :: is => (if b = 0#8 then [] else [b]) ++ pushedBytes c m is
  | m, .pop :: is => pushedBytes c m is
  | m, .irqEnable _ :: is => pushedBytes c m is
  | m, .picInit _ :: is => pushedBytes c m is

/-- The bytes the `POP`s of a sequence return, read from its responses: `DATA` where `VALID` is 1 (R89). -/
def poppedBytes : List Instr → List Word → List Byte
  | .pop :: is, r :: rs => (if r.getLsbD 8 then [r.extractLsb' 0 8] else []) ++ poppedBytes is rs
  | _ :: is, _ :: rs => poppedBytes is rs
  | _, _ => []

/-- No command of a sequence raises the reset request, from modifier state `m` (R142). -/
def noResetRequest (c : Config) : ModBits → List Instr → Bool
  | _, [] => true
  | m, .kbdIn code :: is => !(kdec c code m).rst && noResetRequest c (kdec c code m).mod is
  | m, .serIn _ :: is => noResetRequest c m is
  | m, .pop :: is => noResetRequest c m is
  | m, .irqEnable _ :: is => noResetRequest c m is
  | m, .picInit _ :: is => noResetRequest c m is

/-- A sequence without the reset request in which every push finds fewer than `CAP` bytes, from modifier state `m` and a queue of `n` bytes (R178).  Both producers push, and commands that push nothing may stand between. -/
def neverOverflows (c : Config) : ModBits → Nat → List Instr → Bool
  | _, _, [] => true
  | m, n, .kbdIn code :: is =>
    let d := kdec c code m
    !d.rst && if d.char = 0#8 then neverOverflows c d.mod n is else n < c.cap && neverOverflows c d.mod (n + 1) is
  | m, n, .serIn b :: is => if b = 0#8 then neverOverflows c m n is else n < c.cap && neverOverflows c m (n + 1) is
  | m, n, .pop :: is => neverOverflows c m (n - 1) is
  | m, n, .irqEnable _ :: is => neverOverflows c m n is
  | m, n, .picInit _ :: is => neverOverflows c m n is

/-- R113: the OR of the one-hot values of the accepted `IRQ_ENABLE`s of a sequence. -/
def acceptedLines : List Instr → Word
  | [] => 0x0000#16
  | .irqEnable irq :: is => (if irqInRange irq then oneHot irq else 0x0000#16) ||| acceptedLines is
  | .kbdIn _ :: is => acceptedLines is
  | .serIn _ :: is => acceptedLines is
  | .pop :: is => acceptedLines is
  | .picInit _ :: is => acceptedLines is

/-- The last of a list of I/O writes that goes to a port. -/
def lastWriteTo (p : Port) (ws : List IOW) : Option Byte := ((ws.filter fun w => w.port == p).getLast?).map IOW.value

end Sys2Proof.Machine
end

