-- ==== Sys2Proof/Certificates/Slice0/Obligations.lean ====
section
/-! DEFINITION. The statements for the provers.  Each docstring names the rules of the spec it formalises or rests on.  A statement about the machine holds for every value of the
parameters that its premises allow, so none of them speaks of the reference tables unless it says so. -/

open Sys2Proof Sys2Proof.Machine

/-! ### Encoding and decoding (30_encoding) -/

/-- R80, R84, R87: decoding the word of a command gives the command back, with every operand. -/
def Obligations.DecodeOfEncodeIsTheCommand : Prop :=
  ∀ i : Instr, i.wf = true → decode (encode i) = .command i

/-- R84, R86, R87: a word that decodes to a command is that command's word, so each command has one word and each word at most one command. -/
def Obligations.EncodeOfDecodeIsTheWord : Prop :=
  ∀ (w : Word) (i : Instr), decode w = .command i → encode i = w

/-- R84: a word is an operation exactly when `w & mask == match`, and the operand is its low byte (R83). -/
def Obligations.OpcodeMapByMatchAndMask : Prop :=
  ∀ w : Word,
    (∀ code, decode w = .command (.kbdIn code) ↔ w &&& 0xFF00#16 = 0x1000#16 ∧ code = w.extractLsb' 0 8) ∧
    (∀ b, decode w = .command (.serIn b) ↔ w &&& 0xFF00#16 = 0x2000#16 ∧ b = w.extractLsb' 0 8) ∧
    (decode w = .command .pop ↔ w &&& 0xFFFF#16 = 0x3000#16) ∧
    (∀ irq, decode w = .command (.irqEnable irq) ↔ w &&& 0xFF00#16 = 0x4000#16 ∧ irq = w.extractLsb' 0 8) ∧
    (∀ base, decode w = .command (.picInit base) ↔ w &&& 0xFF00#16 = 0x5000#16 ∧ base = w.extractLsb' 0 8)

/-- R85, R86: the reserved words are those with `OPC` 0x0 or 0x6 to 0xF, those with `RSV` not 0000, and those of `POP` with `ARG` not 0x00, and no others. -/
def Obligations.ReservedWordsAreExactlyThese : Prop :=
  ∀ w : Word, (∃ why, decode w = .reserved why) ↔
    (w.extractLsb' 12 4 = 0x0#4 ∨ 6 ≤ (w.extractLsb' 12 4).toNat) ∨ w.extractLsb' 8 4 ≠ 0x0#4 ∨
      (w.extractLsb' 12 4 = 0x3#4 ∧ w.extractLsb' 0 8 ≠ 0x00#8)

/-- R87: exactly 1025 of the 65536 words decode to an operation. -/
def Obligations.CommandWordCountIs1025 : Prop :=
  ((List.range 65536).countP fun n => (decodeTableWord 16 n).isSome) = 1025

/-- Sanity: the words of the worked examples of 95_test_vectors (W1, W2, P1, section 5) decode as the spec says. -/
def Obligations.WordsOfTheWorkedExamplesDecode : Prop :=
  decode 0x101E#16 = .command (.kbdIn 0x1E#8) ∧ decode 0x20FF#16 = .command (.serIn 0xFF#8) ∧
    decode 0x3000#16 = .command .pop ∧ decode 0x400F#16 = .command (.irqEnable 15#8) ∧
    decode 0x5020#16 = .command (.picInit 0x20#8) ∧ decode 0x0000#16 = .reserved (.opcode 0x0#4) ∧
    decode 0x1F1E#16 = .reserved (.rsvField 0xF#4) ∧ decode 0x3001#16 = .reserved (.popOperand 0x01#8)

/-- R90: the text of a command assembles to the command; the text's details that R90 does not state are the model's choice (notes/assumptions/16). -/
def Obligations.AssembleOfDisassembleIsTheCommand : Prop :=
  ∀ i : Instr, assembleLine (disassemble i) = .command i

/-! ### The command port (20_memory, 60_exceptions, 70_reset_and_hazards) -/

/-- R21, R70: a step takes the word at the head of the host's stream; when `HALT` is 0 and the word decodes to a command, the step is that command's meaning on the state with the word taken.  Nothing else
is added around it: there is no program counter.  That the commands stand in a stream of the state is the model's choice (notes/assumptions/2). -/
def Obligations.StepRunsTheDecodedCommand : Prop :=
  ∀ (s : State) (w : Word) (rest : List HostInput) (i : Instr),
    s.port = .command w :: rest → s.halt = false → decode w = .command i → step s = exec i { s with port := rest }

/-- R201, R203: any word while `HALT` is 1 is refused as halted, a reserved one too; a reserved word while `HALT` is 0 is refused as reserved; each refusal records the word. -/
def Obligations.RefusalsAndTheirPrecedence : Prop :=
  ∀ (s : State) (w : Word) (rest : List HostInput), s.port = .command w :: rest →
    (s.halt = true → step s = .refused (.halted w)) ∧
    (s.halt = false → ∀ why, decode w = .reserved why → step s = .refused (.reserved w why))

/-- R200: no step faults (the model's one fault needs `CAP = 0`, which R5 forbids; notes/assumptions/11), and a step is refused only for a word, as halted or as reserved (R201; notes/assumptions/5 and 6). -/
def Obligations.StepsNeverFaultAndRefuseOnlyWords : Prop :=
  ∀ s : State, 0 < s.cfg.cap →
    (∀ f, step s ≠ .fault f) ∧
    (∀ r, step s = .refused r → ∃ w rest, s.port = .command w :: rest ∧
      ((s.halt = true ∧ r = .halted w) ∨ (s.halt = false ∧ ∃ why, decode w = .reserved why ∧ r = .reserved w why)))

/-- R200 ("every public operation is total"), R184: each of the five commands answers a next state, for every operand and in every state with a legal capacity.  `exec` is the command's own rule, after the `HALT` check
of the command port.  That `KBD_IN` answers a next state on the reset combination too, where R145 says that the command does not complete and R231 that a model ends the run, is the model's choice (notes/assumptions/6). -/
def Obligations.EveryCommandCompletes : Prop :=
  ∀ (i : Instr) (s : State), 0 < s.cfg.cap → ∃ t, exec i s = .next t

/-- R71, R181: whichever of a `POP`, a serial byte and a scan code arrive in one cycle, they are run in the order `POP`, `SER_IN`, `KBD_IN`, ahead of the rest of the stream.  That the arbitration is a step of its own is the
model's choice (notes/assumptions/4). -/
def Obligations.SameCycleOrderIsPopSerialKeyboard : Prop :=
  ∀ (s : State) (pop : Bool) (ser kbd : Option Byte) (rest : List HostInput),
    s.port = .together pop ser kbd :: rest →
    step s = .next { s with
      port := (if pop then [HostInput.command (encode .pop)] else []) ++
        (match ser with
          | some b => [HostInput.command (encode (.serIn b))]
          | none => []) ++
        (match kbd with
          | some code => [HostInput.command (encode (.kbdIn code))]
          | none => []) ++ rest }

/-- R70, R231: presenting the words of a sequence of commands on the command port and taking as many steps runs the sequence: the commands take effect in the order presented, one a step, and the stream has no other effect.  If one of
them raises the reset request, the run of the stream ends there as the run of the sequence does.  That the host's stream stands in the state is the model's choice (notes/assumptions/2). -/
def Obligations.PresentedCommandsRunInOrder : Prop :=
  ∀ (cs : List Instr) (s t : State), s.port = cs.map present → s.halt = false →
    (∀ rs, issue cs { s with port := [] } = .done rs t → Sys2Proof.core.run cs.length s = .next t ∧ runStream cs.length s = .done () t) ∧
    (issue cs { s with port := [] } = .resetRequest t → ∃ rest, runStream cs.length s = .resetRequest { t with port := rest })

/-- With no input presented the block waits: the step answers the same state, whether or not it is halted.  R230 says that after reset the block waits for the first command; that every state with an empty stream, a halted one
too, answers itself is the model's choice (notes/assumptions/2 and 6). -/
def Obligations.BlockWaitsForAnInput : Prop :=
  ∀ s : State, s.port = [] → step s = .next s

/-- R42: what reset leaves, with the reference value of `IMASK_RESET`.  The ring is empty; `BUF` is left open by the rule and nothing is said of it. -/
def Obligations.ResetStateIsTheOneOfTheSpec : Prop :=
  State.reset.mod = 0x00#7 ∧ State.reset.halt = false ∧ State.reset.wptr = 0 ∧ State.reset.rptr = 0 ∧
    queue State.reset = [] ∧ State.reset.imask = 0xFFFB#16 ∧ State.reset.init = false ∧ State.reset.out = [] ∧
    State.reset.resp = 0x0000#16

/-- R230, R42: the reset input, at any time: every field of the block takes its reset value, no write is made, and the external controllers stay as they were (R230).  That the host's stream and the parameters stay
too is the model's choice (notes/assumptions/15). -/
def Obligations.ResetInputResetsTheBlockAndKeepsTheControllers : Prop :=
  ∀ (s : State) (rest : List HostInput), s.port = .reset :: rest → ∃ t, step s = .next t ∧
    t.mod = 0x00#7 ∧ t.halt = false ∧ t.wptr = 0 ∧ t.rptr = 0 ∧ queue t = [] ∧ t.imask = s.cfg.imaskReset ∧
    t.init = false ∧ t.out = [] ∧ t.resp = 0x0000#16 ∧ t.cfg = s.cfg ∧ t.port = rest ∧ ∀ u, t.pic u = s.pic u

/-- R230, R214, R39: a power cycle resets the block like the reset input, and the controllers' state is then a draw, of which nothing else is said.  That the host's stream and the parameters stay (notes/assumptions/15) and
that the draw is the next value of a counter (notes/assumptions/7) are the model's choices. -/
def Obligations.PowerCycleResetsTheBlockAndDrawsTheControllers : Prop :=
  ∀ (s : State) (rest : List HostInput), s.port = .powerOn :: rest → ∃ t, step s = .next t ∧
    t.mod = 0x00#7 ∧ t.halt = false ∧ t.wptr = 0 ∧ t.rptr = 0 ∧ queue t = [] ∧ t.imask = s.cfg.imaskReset ∧
    t.init = false ∧ t.out = [] ∧ t.resp = 0x0000#16 ∧ t.cfg = s.cfg ∧ t.port = rest ∧
    ∀ u, t.pic u = Config.powerOnPic (s.draw + 1) u

/-- R28, R231: `HALT` is left only through the reset input or a power cycle, which are inputs of the stream by the model's choice (notes/assumptions/6 and 15). -/
def Obligations.HaltIsLeftOnlyByReset : Prop :=
  ∀ s t : State, s.halt = true → step s = .next t → t.halt = false →
    ∃ rest, s.port = .reset :: rest ∨ s.port = .powerOn :: rest

/-- R28, R200: `HALT` is entered only by a `KBD_IN` whose decoding fires the reset request, and that step makes exactly the reset write.  That the request is a step to a next state is the model's choice (notes/assumptions/6). -/
def Obligations.HaltIsEnteredOnlyByTheResetRequest : Prop :=
  ∀ s t : State, s.halt = false → step s = .next t → t.halt = true →
    ∃ w code rest, s.port = .command w :: rest ∧ decode w = .command (.kbdIn code) ∧
      (kdec s.cfg code s.mod).rst = true ∧ t.out = s.out ++ [{ port := s.cfg.resetPort, value := s.cfg.resetCmd }]

/-- R231, D16: the reset request ends the run, as an outcome of its own.  A `KBD_IN` that fires it ends every run of one step or more there, with `HALT` set, and whatever the stream still holds takes no effect; and a run that ends so ends
in a halted state.  That the end of a run is a type beside the step's three outcomes is the model's choice (notes/assumptions/6). -/
def Obligations.RunsEndAtTheResetRequest : Prop :=
  (∀ (s : State) (w : Word) (code : Byte) (rest : List HostInput),
    s.port = .command w :: rest → s.halt = false → decode w = .command (.kbdIn code) → (kdec s.cfg code s.mod).rst = true →
    ∀ n, runStream (n + 1) s = .resetRequest
      { s with
        port := rest
        out := s.out ++ [{ port := s.cfg.resetPort, value := s.cfg.resetCmd }]
        mod := (kdec s.cfg code s.mod).mod
        halt := true }) ∧
  (∀ (n : Nat) (s t : State), runStream n s = .resetRequest t → t.halt = true ∧
    ∀ m, n ≤ m → runStream m s = .resetRequest t)

/-! ### The scan-code decoder (41_scan_decoder) -/

/-- R132 to R139, R142, R143: the whole decoder function, written out with the constants of R131.  `idx` is the lookup index, `m3` the modifier state after a make code, `c0` the table's character.  R143 is the spec's own gathering of the
others, and the reset test of R142 its reading of "the 'delete' logical key" (D15). -/
def Obligations.DecoderFunctionAsGathered : Prop :=
  ∀ (c : Config) (code : Byte) (m : ModBits),
    (code = 0xE0#8 → kdec c code m = { mod := m ||| 0x40#7, char := 0x00#8, rst := false }) ∧
    (code ≠ 0xE0#8 → code.getLsbD 7 = true →
      ∀ idx, idx = (if m &&& 0x40#7 ≠ 0#7 then code else code &&& 0x7F#8) →
        kdec c code m = { mod := m &&& ~~~(Config.entry c.shiftCode idx ||| 0x40#7), char := 0x00#8, rst := false }) ∧
    (code.getLsbD 7 = false →
      ∀ idx m3 c0 ch,
        idx = (if m &&& 0x40#7 ≠ 0#7 then code ||| 0x80#8 else code) →
        m3 = ((m &&& ~~~0x40#7) ||| Config.entry c.shiftCode idx) ^^^ Config.entry c.toggleCode idx →
        c0 = Config.entry (if m3 &&& 0x02#7 ≠ 0#7 then c.kmapCtl else if m3 &&& 0x01#7 ≠ 0#7 then c.kmapShift else c.kmapNormal) idx →
        ch = (if m3 &&& 0x08#7 ≠ 0#7 ∧ 0x61 ≤ c0.toNat ∧ c0.toNat ≤ 0x7A then c0 - 0x20#8
          else if m3 &&& 0x08#7 ≠ 0#7 ∧ 0x41 ≤ c0.toNat ∧ c0.toNat ≤ 0x5A then c0 + 0x20#8 else c0) →
        kdec c code m = { mod := m3, char := ch, rst := decide (m3 &&& 0x06#7 = 0x06#7 ∧ ch = c.keyDel) })

/-- R158, R25: a break code other than 0xE0 sets no bit, clears a pending escape, gives no character and no reset request, and (with tables that meet R150 point 2) leaves the three toggles as they were. -/
def Obligations.BreakCodesOnlyClearHeldBits : Prop :=
  ∀ (c : Config) (code : Byte) (m : ModBits), code ≠ 0xE0#8 → code.getLsbD 7 = true →
    (kdec c code m).mod &&& ~~~m = 0#7 ∧ (kdec c code m).mod &&& E0ESC = 0#7 ∧
    (kdec c code m).char = 0x00#8 ∧ (kdec c code m).rst = false ∧
    (c.heldOk = true → (kdec c code m).mod &&& (CAPSLOCK ||| NUMLOCK ||| SCROLLLOCK) = m &&& (CAPSLOCK ||| NUMLOCK ||| SCROLLLOCK))

/-- R26: the escape is set by the byte 0xE0 and cleared by every other byte, make or break; a 0xE0 while it is set leaves it set.  The tables meet R150 point 2, so no entry holds the escape bit. -/
def Obligations.EscapeLastsOneByte : Prop :=
  ∀ (c : Config) (code : Byte) (m : ModBits), c.heldOk = true → c.toggleOk = true →
    ((kdec c code m).mod &&& E0ESC ≠ 0#7 ↔ code = 0xE0#8)

/-- R138, R139, R162, R164: only SHIFT, CTL, CAPSLOCK and the escape can change a decoded character: NUMLOCK, SCROLLLOCK and ALT never do. -/
def Obligations.OnlyShiftCtlCapsAndEscapeChangeTheCharacter : Prop :=
  ∀ (c : Config) (code : Byte) (m n : ModBits),
    (m ^^^ n) &&& (SHIFT ||| CTL ||| CAPSLOCK ||| E0ESC) = 0#7 → (kdec c code m).char = (kdec c code n).char

/-- R142, R164, with the reference tables (notes/assumptions/3): the reset request fires exactly for the code 0x53 after an escape with ctrl and alt held (index 0xD3); the un-prefixed 0x53 does not fire it. -/
def Obligations.ResetComboWithTheReferenceTables : Prop :=
  ∀ (code : Byte) (m : ModBits),
    (kdec refConfig code m).rst = true ↔ code = 0x53#8 ∧ m &&& (CTL ||| ALT ||| E0ESC) = CTL ||| ALT ||| E0ESC

/-- R140, R145: all that `KBD_IN` does.  When the decoding fires the reset request: the reset write, `MOD`, `HALT`, and neither a push nor a response; that this is a next state, where R231 has a model end the run, is the model's choice
(notes/assumptions/6).  Otherwise `MOD` is written; a character other than 0 is stored at the slot of `WPTR`, `WPTR` moves as `RingPush` moves it, and the response carries the character with `VALID` 1; no character gives the response 0x0000
and leaves the ring alone. -/
def Obligations.KbdInDecodesPushesOrRequestsReset : Prop :=
  ∀ (s : State) (code : Byte) (d : Decoding), 0 < s.cfg.cap → d = kdec s.cfg code s.mod →
    (d.rst = true → exec (.kbdIn code) s = .next
      { s with out := s.out ++ [{ port := s.cfg.resetPort, value := s.cfg.resetCmd }], mod := d.mod, halt := true }) ∧
    (d.rst = false → d.char = 0x00#8 → exec (.kbdIn code) s = .next { s with mod := d.mod, resp := 0x0000#16 }) ∧
    (d.rst = false → d.char ≠ 0x00#8 → exec (.kbdIn code) s = .next
      { s with
        mod := d.mod
        buf := Memory.write s.buf (s.wptr % s.cfg.cap) d.char
        wptr := pushedPtr s
        resp := 0x0100#16 ||| d.char.setWidth 16 })

/-- The frame of `KBD_IN` (R140, R145, R32): what it leaves unchanged.  The byte it may store goes to the slot of `WPTR`; with no character or on the reset request (a next state: notes/assumptions/6) nothing is stored and
`WPTR` stays. -/
def Obligations.KbdInFrame : Prop :=
  ∀ (s t : State) (code : Byte), exec (.kbdIn code) s = .next t →
    t.cfg = s.cfg ∧ t.rptr = s.rptr ∧ t.imask = s.imask ∧ t.init = s.init ∧ t.port = s.port ∧ t.past = s.past ∧ t.draw = s.draw ∧
    (∀ a, a ≠ slot s s.wptr → Memory.read t.buf a = Memory.read s.buf a) ∧
    ((kdec s.cfg code s.mod).char = 0x00#8 ∨ (kdec s.cfg code s.mod).rst = true →
      t.wptr = s.wptr ∧ ∀ a, Memory.read t.buf a = Memory.read s.buf a) ∧
    ((kdec s.cfg code s.mod).rst = true → t.resp = s.resp) ∧
    ((kdec s.cfg code s.mod).rst = false → t.halt = s.halt ∧ t.out = s.out)

/-! ### The ring (10_state, 42_input_fifo) -/

/-- R173, R171: all that `SER_IN` does: a byte other than 0 is stored at the slot of `WPTR`, `WPTR` advances modulo `2*CAP` or, when `FILL` is `2*CAP - 1`, folds, and the response carries the byte; `SER_IN 0x00` changes nothing but
the response. -/
def Obligations.SerInPushesTheByte : Prop :=
  ∀ (s : State) (b : Byte), 0 < s.cfg.cap →
    (b = 0x00#8 → exec (.serIn b) s = .next { s with resp := 0x0000#16 }) ∧
    (b ≠ 0x00#8 → exec (.serIn b) s = .next
      { s with
        buf := Memory.write s.buf (s.wptr % s.cfg.cap) b
        wptr := if ((s.wptr : Int) - s.rptr) % (2 * s.cfg.cap) = 2 * s.cfg.cap - 1
          then (s.wptr + 1 + s.cfg.cap) % (2 * s.cfg.cap) else (s.wptr + 1) % (2 * s.cfg.cap)
        resp := 0x0100#16 ||| b.setWidth 16 })

/-- The frame of `SER_IN` (R173, R32). -/
def Obligations.SerInFrame : Prop :=
  ∀ (s t : State) (b : Byte), exec (.serIn b) s = .next t →
    t.cfg = s.cfg ∧ t.mod = s.mod ∧ t.halt = s.halt ∧ t.rptr = s.rptr ∧ t.imask = s.imask ∧ t.init = s.init ∧ t.out = s.out ∧
    t.port = s.port ∧ t.past = s.past ∧ t.draw = s.draw ∧
    (∀ a, a ≠ slot s s.wptr → Memory.read t.buf a = Memory.read s.buf a) ∧
    (b ≠ 0x00#8 → Memory.read t.buf (slot s s.wptr) = b) ∧
    (b = 0x00#8 → t.wptr = s.wptr ∧ ∀ a, Memory.read t.buf a = Memory.read s.buf a)

/-- R174, R172: all that `POP` does.  On an empty ring (`FILL = 0`) the response is 0x0000 and nothing moves.  Otherwise the byte is read at `r`, which is `RPTR` or, on an overrun, `WPTR + CAP`, and `RPTR` becomes `r + 1`, both modulo
`2*CAP`. -/
def Obligations.PopTakesTheOldestByte : Prop :=
  ∀ (s : State) (f : Int) (r : Nat), 0 < s.cfg.cap → f = ((s.wptr : Int) - s.rptr) % (2 * s.cfg.cap) →
    r = (if (s.cfg.cap : Int) < f then (s.wptr + s.cfg.cap) % (2 * s.cfg.cap) else s.rptr) →
    (f = 0 → exec .pop s = .next { s with resp := 0x0000#16 }) ∧
    (f ≠ 0 → exec .pop s = .next
      { s with
        rptr := (r + 1) % (2 * s.cfg.cap)
        resp := 0x0100#16 ||| (Memory.read s.buf (r % s.cfg.cap)).setWidth 16 })

/-- The frame of `POP` (R174, R32): it stores nothing, so every byte of the ring reads as before. -/
def Obligations.PopFrame : Prop :=
  ∀ s t : State, exec .pop s = .next t →
    t.cfg = s.cfg ∧ t.mod = s.mod ∧ t.halt = s.halt ∧ t.wptr = s.wptr ∧ t.imask = s.imask ∧ t.init = s.init ∧ t.out = s.out ∧
    t.port = s.port ∧ t.past = s.past ∧ t.draw = s.draw ∧ (∀ a, Memory.read t.buf a = Memory.read s.buf a) ∧
    (queue s = [] → t.rptr = s.rptr)

/-- R180: `RingPush` writes `WPTR` and `BUF` and never `RPTR`; `RingPop` writes `RPTR` and never `WPTR` or `BUF`; neither writes anything else. -/
def Obligations.EachPointerHasOneWriter : Prop :=
  (∀ (b : Byte) (s t : State), ringPush b s = .ok t → t = { s with buf := t.buf, wptr := t.wptr }) ∧
  (∀ (v : Option Byte) (s t : State), ringPop s = .ok (v, t) → t = { s with rptr := t.rptr })

/-- R183: from any state that meets R33, `RingPush` and `RingPop` act on the byte sequence `Q` of R34 as a queue of at most `CAP` bytes that drops its oldest byte when a push would exceed `CAP`. -/
def Obligations.RingPrimitivesRefineABoundedQueue : Prop :=
  ∀ s : State, RingInv s →
    (∀ b, ∃ t, ringPush b s = .ok t ∧
      queue t = if (queue s).length = s.cfg.cap then (queue s).tail ++ [b] else queue s ++ [b]) ∧
    (queue s = [] → ∃ t, ringPop s = .ok (none, t) ∧ queue t = []) ∧
    (∀ h q, queue s = h :: q → ∃ t, ringPop s = .ok (some h, t) ∧ queue t = q)

/-- R33, R34, R183, R89: the machine refines the abstract console: for every sequence of commands, whether it runs to its end or ends at the reset request, every response on the way, and the modifier state and byte sequence at the end are
those of a console that keeps only `MOD` and `Q`; and no sequence stops with a refusal or a fault. -/
def Obligations.MachineRefinesTheAbstractConsole : Prop :=
  ∀ (cs : List Instr) (s : State), RingInv s → s.halt = false →
    (issue cs s).seen = some (Console.issue s.cfg cs s.console)

/-- R178: from an empty ring, for any sequence of commands without the reset request, in which `KBD_IN`s and `SER_IN`s push and no push finds the ring full, the bytes popped are a prefix of the bytes pushed, and a further `POP` returns none
exactly when all the pushed bytes have been returned. -/
def Obligations.FifoOrderWithoutOverflow : Prop :=
  ∀ (cs : List Instr) (s : State), RingInv s → s.halt = false → queue s = [] → neverOverflows s.cfg s.mod 0 cs = true →
    ∃ rs t u, issue cs s = .done rs t ∧ poppedBytes cs rs <+: pushedBytes s.cfg s.mod cs ∧ exec .pop t = .next u ∧
      (u.resp = 0x0000#16 ↔ poppedBytes cs rs = pushedBytes s.cfg s.mod cs)

/-- R179: from the empty ring, any sequence of commands without a `POP` and without the reset request, which pushes any number of bytes from either producer, and then `CAP + 1` pops: the pops return the most recent `min(n, CAP)` of the `n` bytes
pushed, oldest first, followed by none. -/
def Obligations.OverwriteKeepsTheMostRecentBytes : Prop :=
  ∀ (cs : List Instr) (bs : List Byte) (s : State), RingInv s → s.halt = false → queue s = [] → Instr.pop ∉ cs →
    noResetRequest s.cfg s.mod cs = true → bs = pushedBytes s.cfg s.mod cs →
    ∃ rs t, issue (cs ++ List.replicate (s.cfg.cap + 1) Instr.pop) s = .done rs t ∧
      rs.drop cs.length =
        (bs.drop (bs.length - s.cfg.cap)).map (fun b => 0x0100#16 ||| b.setWidth 16) ++
          List.replicate (s.cfg.cap + 1 - min bs.length s.cfg.cap) 0x0000#16

/-- R33 (b): every slot among the `COUNT` slots a consumer can read is listed in the storage.  That a listed slot is one written since reset holds of this model because an unwritten slot reads as 0x00 (notes/assumptions/1), the producers push no 0x00, and
a reset empties the list (notes/assumptions/9), the model's choices. -/
def Obligations.ReadableSlotsWereWritten : Prop :=
  ∀ s : State, RingInv s → ∀ j, j < count s →
    ∃ b, (slot s (wrap s ((s.wptr : Int) - count s + j)), b) ∈ s.buf ∧ (queue s)[j]? = some b

/-! ### The interrupt mask (40_irq_mask) -/

/-- R101: `IRQ_ENABLE` of a line below 16 clears exactly that bit of the mask and, when the controllers have been programmed, writes the new mask's low byte to the master and its high byte to the slave, in this order; it
responds 0x0000 and changes nothing else. -/
def Obligations.IrqEnableClearsOneBit : Prop :=
  ∀ (s : State) (irq : Byte), irq.toNat < 16 →
    ∃ v : Word, (∀ n, v.getLsbD n = (s.imask.getLsbD n && n != irq.toNat)) ∧
      exec (.irqEnable irq) s = .next
        { s with
          imask := v
          out := s.out ++ (if s.init then
            [{ port := s.cfg.pic1Data, value := v.extractLsb' 0 8 }, { port := s.cfg.pic2Data, value := v.extractLsb' 8 8 }] else [])
          resp := 0x0000#16 }

/-- R102: an `irq` of 16 or more changes nothing: no mask bit, no emitted write, response 0x0000.  R102 also lets a model refuse it; this one does not (notes/assumptions/10). -/
def Obligations.IrqEnableOutOfRangeChangesNothing : Prop :=
  ∀ (s : State) (irq : Byte), 16 ≤ irq.toNat → exec (.irqEnable irq) s = .next { s with resp := 0x0000#16 }

/-- R104, R105, R112: `PIC_INIT`, the first or a later one, sets `INIT`, emits the sixteen writes of R105 in order, with the mask as it stands, responds 0x0000 and changes nothing else. -/
def Obligations.PicInitEmitsTheSixteenWrites : Prop :=
  ∀ (s : State) (base : Byte),
    exec (.picInit base) s = .next
      { s with
        init := true
        resp := 0x0000#16
        out := s.out ++
          [⟨s.cfg.pic1Data, 0xFF#8⟩, ⟨s.cfg.pic2Data, 0xFF#8⟩,
           ⟨s.cfg.pic1Cmd, s.cfg.icw1⟩, ⟨s.cfg.pic1Data, base⟩, ⟨s.cfg.pic1Data, s.cfg.icw3m⟩, ⟨s.cfg.pic1Data, s.cfg.icw4⟩,
           ⟨s.cfg.pic2Cmd, s.cfg.icw1⟩, ⟨s.cfg.pic2Data, BitVec.ofNat 8 ((base.toNat + 8) % 256)⟩, ⟨s.cfg.pic2Data, s.cfg.icw3s⟩,
           ⟨s.cfg.pic2Data, s.cfg.icw4⟩,
           ⟨s.cfg.pic1Cmd, s.cfg.ocw3a⟩, ⟨s.cfg.pic1Cmd, s.cfg.ocw3b⟩, ⟨s.cfg.pic2Cmd, s.cfg.ocw3a⟩, ⟨s.cfg.pic2Cmd, s.cfg.ocw3b⟩,
           ⟨s.cfg.pic1Data, s.imask.extractLsb' 0 8⟩, ⟨s.cfg.pic2Data, s.imask.extractLsb' 8 8⟩] }

/-- The frame of `IRQ_ENABLE` and `PIC_INIT` (R101, R104): neither stores to the ring, and the writes of the first leave `INIT` alone, those of the second `IMASK`. -/
def Obligations.MaskCommandsFrame : Prop :=
  ∀ (i : Instr) (s t : State), (∃ irq, i = .irqEnable irq) ∨ (∃ base, i = .picInit base) → exec i s = .next t →
    t.cfg = s.cfg ∧ t.mod = s.mod ∧ t.halt = s.halt ∧ t.wptr = s.wptr ∧ t.rptr = s.rptr ∧ t.port = s.port ∧ t.past = s.past ∧
    t.draw = s.draw ∧ (∀ a, Memory.read t.buf a = Memory.read s.buf a) ∧
    (∀ irq, i = .irqEnable irq → t.init = s.init ∧ (s.init = false → t.out = s.out) ∧
      (∀ n, n ≠ irq.toNat → t.imask.getLsbD n = s.imask.getLsbD n)) ∧
    (∀ base, i = .picInit base → t.imask = s.imask)

/-- R22 ("written by"), R32, R114: each field of the block is written only by the commands that own it. -/
def Obligations.OnlyTheOwningCommandsWriteAField : Prop :=
  ∀ (i : Instr) (s t : State), exec i s = .next t →
    t.cfg = s.cfg ∧ t.port = s.port ∧ t.past = s.past ∧ t.draw = s.draw ∧
    (t.mod ≠ s.mod ∨ t.halt ≠ s.halt → ∃ code, i = .kbdIn code) ∧
    (t.buf ≠ s.buf ∨ t.wptr ≠ s.wptr → (∃ code, i = .kbdIn code) ∨ ∃ b, i = .serIn b) ∧
    (t.rptr ≠ s.rptr → i = .pop) ∧
    (t.imask ≠ s.imask → ∃ irq, i = .irqEnable irq ∧ irq.toNat < 16) ∧
    (t.init ≠ s.init → ∃ base, i = .picInit base)

/-- R64, R65: no command rewrites a write already emitted: `OUT` only grows at its end, by one write for a `KBD_IN` that fires the reset request, two for an `IRQ_ENABLE` below 16 once the controllers are programmed, sixteen for a `PIC_INIT`, and none
otherwise. -/
def Obligations.EmittedWritesOnlyGrow : Prop :=
  ∀ (i : Instr) (s t : State), exec i s = .next t → ∃ ws, t.out = s.out ++ ws ∧
    ws.length = (match i with
      | .kbdIn code => if (kdec s.cfg code s.mod).rst then 1 else 0
      | .serIn _ => 0
      | .pop => 0
      | .irqEnable irq => if irq.toNat < 16 ∧ s.init = true then 2 else 0
      | .picInit _ => 16)

/-- R35, R103: no command sets a bit of the mask. -/
def Obligations.MaskBitsAreOnlyCleared : Prop :=
  ∀ (i : Instr) (s t : State), exec i s = .next t → t.imask &&& ~~~s.imask = 0#16

/-- R113: after any sequence of commands from reset the mask is `IMASK_RESET & ~E`, where `E` is the OR of the one-hot values of the accepted `IRQ_ENABLE`s, `0x0001 << irq` is the one-hot value of bit `irq`, and `E` does not depend on the
order of the commands. -/
def Obligations.MaskIsResetValueWithoutTheAcceptedLines : Prop :=
  (∀ (irq : Byte) (n : Nat), irq.toNat < 16 → (oneHot irq).getLsbD n = (n == irq.toNat)) ∧
  (∀ (cs : List Instr) (s t : State) (rs : List Word), s.imask = s.cfg.imaskReset → issue cs s = .done rs t →
    t.imask = s.cfg.imaskReset &&& ~~~(acceptedLines cs)) ∧
  (∀ cs ds : List Instr, cs.Perm ds → acceptedLines cs = acceptedLines ds)

/-- R111: the deferred-apply law.  From reset, `IRQ_ENABLE`s of lines below 16 emit nothing; after a `PIC_INIT` the last write to each controller's data port is its byte of the mask with those lines cleared, and under the view of R207 each line's bit is
clear in its controller's mask register.  The ports and programming bytes are as R69, R105, R106, R109 and R110 say (`Config.picOk`; notes/assumptions/13), and no other agent writes the controllers
(notes/assumptions/18). -/
def Obligations.DeferredEnablesApplyAtPicInit : Prop :=
  ∀ (irqs : List Byte) (base : Byte) (s : State), s.cfg.picOk = true → s.halt = false → s.init = false → s.out = [] →
    s.imask = s.cfg.imaskReset → (∀ irq ∈ irqs, irq.toNat < 16) →
    ∃ rs t rs' u v, issue (irqs.map Instr.irqEnable) s = .done rs t ∧ t.out = [] ∧
      issue (irqs.map Instr.irqEnable ++ [Instr.picInit base]) s = .done rs' u ∧
      v = s.cfg.imaskReset &&& ~~~(acceptedLines (irqs.map Instr.irqEnable)) ∧
      lastWriteTo s.cfg.pic1Data u.out = some (v.extractLsb' 0 8) ∧ lastWriteTo s.cfg.pic2Data u.out = some (v.extractLsb' 8 8) ∧
      ∀ irq ∈ irqs, (u.pic (lineUnit irq.toNat)).imr.getLsbD (irq.toNat % 8) = false

/-! ### The external controllers (60_exceptions R204 to R207) -/

/-- R207: after `PIC_INIT` each controller is ready, with its byte of the mask in its mask register and its vector base as given, whatever it was before.  That the view keeps the vector base (notes/assumptions/8) and takes no other agent's writes
(notes/assumptions/18) is the model's. -/
def Obligations.PicInitProgramsBothControllers : Prop :=
  ∀ (s t : State) (base : Byte), s.cfg.picOk = true → exec (.picInit base) s = .next t →
    t.pic .master = { phase := .ready, icw1 := s.cfg.icw1, vecBase := base, imr := s.imask.extractLsb' 0 8 } ∧
    t.pic .slave = { phase := .ready, icw1 := s.cfg.icw1, vecBase := base + 8#8, imr := s.imask.extractLsb' 8 8 }

/-- R114, R207: once the controllers are programmed, every step keeps them ready and their mask registers equal to the bytes of `IMASK`; a reset input clears `INIT` and ends the agreement's scope.  That no other agent writes the controllers is the model's
premise (notes/assumptions/18). -/
def Obligations.StepsKeepTheControllersInAgreement : Prop :=
  ∀ s t : State, s.cfg.picOk = true → ControllersAgree s → step s = .next t → t.cfg.picOk = true ∧ ControllersAgree t

/-- R205, R37: with the controllers programmed and the cascade line open, the mask registers of R205 let a line through to the processor exactly when its bit of `IMASK` is 0.  R205 says "only if"; that the masks stop nothing else is the model's reading
(notes/assumptions/22). -/
def Obligations.UnmaskedLinesReachTheProcessor : Prop :=
  ∀ (s : State) (n : Nat), ControllersAgree s → s.init = true → CascadeOpen s → n < 16 →
    lineReaches s n = !s.imask.getLsbD n

/-- R206, R107: from any state, after a `PIC_INIT base` and any sequence of commands with no further `PIC_INIT`, whether it runs to its end or ends at the reset request, the controllers deliver line `n` with the vector R206 gives for `base`.  It rests on
the vector base that the view keeps (DEDUCED, notes/assumptions/8). -/
def Obligations.VectorsFollowTheBase : Prop :=
  ∀ (cs : List Instr) (base : Byte) (s t : State) (rs : List Word) (n : Nat), s.cfg.picOk = true → n < 16 →
    (∀ b, Instr.picInit b ∉ cs) →
    (issue (.picInit base :: cs) s = .done rs t ∨ issue (.picInit base :: cs) s = .resetRequest t) →
    t.vector n = vectorOf base n

/-- R206: from any state with both controllers ready, every step but one that runs a `PIC_INIT` or a power cycle keeps them ready and leaves their vector bases alone (the bases: DEDUCED, notes/assumptions/8). -/
def Obligations.OnlyPicInitChangesAVectorBase : Prop :=
  ∀ s t : State, s.cfg.picOk = true → (∀ u, (s.pic u).phase = .ready) → step s = .next t →
    (∀ w base rest, s.port = .command w :: rest → decode w ≠ .command (.picInit base)) → (∀ rest, s.port ≠ .powerOn :: rest) →
    ∀ u, (t.pic u).phase = .ready ∧ (t.pic u).vecBase = (s.pic u).vecBase

/-! ### Invariants of every step -/

/-- R29: no step changes a parameter or a table. -/
def Obligations.TablesAreReadOnly : Prop :=
  ∀ s t : State, step s = .next t → t.cfg = s.cfg

/-- R33, R37, R88, R182: every step keeps the machine's invariant: legal parameters, both pointers in range, the ring's storage in its one form within `[0, CAP)`, no readable 0x00, the cascade line open, a response of the form R88. -/
def Obligations.StepsKeepTheInvariant : Prop :=
  ∀ s t : State, Inv s → step s = .next t → Inv t

/-- The machine's invariant holds after reset; the reference parameters (notes/assumptions/3) meet R5 and R150. -/
def Obligations.ResetMeetsTheInvariant : Prop :=
  Inv State.reset ∧ State.reset.cfg.picOk = true ∧ ControllersAgree State.reset

/-! ### Host sequences (30_encoding R91, 42_input_fifo R176, R177, 70_reset_and_hazards R232) -/

/-- R176, R177: `GET_CHAR` issues a `SER_IN` for each byte the serial port reports before its first "no data ready" (none if the port is absent), then a `KBD_IN` for each byte the keyboard controller reports before its first "output buffer empty", then one
`POP`.  That the devices' answers are lists is the model's choice (notes/assumptions/14). -/
def Obligations.GetCharDrainsSerialThenKeyboardThenPops : Prop :=
  ∀ (c : Config) (ser : List (Bool × Byte)) (kbd : List (Byte × Byte)),
    commandsOf (getChar c true ser kbd) =
      (ser.takeWhile (fun x => x.1)).map (fun x => Instr.serIn x.2) ++
        (kbd.takeWhile (fun x => x.1.getLsbD c.kbcFullBit)).map (fun x => Instr.kbdIn x.2) ++ [Instr.pop] ∧
    commandsOf (getChar c false ser kbd) =
      (kbd.takeWhile (fun x => x.1.getLsbD c.kbcFullBit)).map (fun x => Instr.kbdIn x.2) ++ [Instr.pop]

/-- R177: the result of `GET_CHAR`.  If its drains run to their end, it returns the oldest byte then in the ring and takes it, or 0 from an empty ring; if a drain raises the reset request, the run ends there with no result (R231).
That the devices' answers are lists and that there is then no result is the model's choice (notes/assumptions/14), as is that the run's end at the reset request is an outcome of its type (notes/assumptions/6). -/
def Obligations.GetCharReturnsTheOldestByte : Prop :=
  ∀ (portPresent : Bool) (ser : List (Bool × Byte)) (kbd : List (Byte × Byte)) (drains : List Instr) (s : State),
    RingInv s → s.halt = false →
    drains = commandsOf (drainSer portPresent ser ++ drainKbd s.cfg kbd) →
    (noResetRequest s.cfg s.mod drains = true → ∃ rs u t, issue drains s = .done rs u ∧
      getCharRun portPresent ser kbd s = .done ((queue u).headD 0x00#8) t ∧ queue t = (queue u).tail) ∧
    (noResetRequest s.cfg s.mod drains = false → ∃ u, issue drains s = .resetRequest u ∧
      getCharRun portPresent ser kbd s = .resetRequest u)

/-- R232: the boot sequence, from any state and with no byte waiting in the keyboard controller, ends with the block running, the controllers programmed, and exactly the keyboard line, the serial line if it is present, and the lines
open at reset unmasked.  That the reset input and the commands are one stream of the host is the model's choice (notes/assumptions/2 and 15). -/
def Obligations.BootArmsTheKeyboardAndSerialLines : Prop :=
  ∀ (s : State) (serialPresent : Bool) (base : Byte) (inputs : List HostInput), s.cfg.wf = true →
    inputs = inputsOf (bootSequence s.cfg serialPresent [] base) → s.port = inputs →
    ∃ t, Sys2Proof.core.run inputs.length s = .next t ∧ t.halt = false ∧ t.init = true ∧ t.port = [] ∧ queue t = [] ∧
      ∀ n, t.imask.getLsbD n =
        (s.cfg.imaskReset.getLsbD n && n != s.cfg.irqKbd.toNat && !(serialPresent && n == s.cfg.irqSer.toNat))
end

