-- ==== Sys2Proof/Laws/State.lean ====
section
/-! SUPPORT. One lemma per field per update of the state, each true by `rfl`, so that no later proof unfolds a record update. -/

namespace Sys2Proof.Machine

/-! ### `emitAll` -/

@[simp] theorem emitAll_cfg (ws : List IOW) (s : State) : (emitAll ws s).cfg = s.cfg := rfl
@[simp] theorem emitAll_mod (ws : List IOW) (s : State) : (emitAll ws s).mod = s.mod := rfl
@[simp] theorem emitAll_halt (ws : List IOW) (s : State) : (emitAll ws s).halt = s.halt := rfl
@[simp] theorem emitAll_buf (ws : List IOW) (s : State) : (emitAll ws s).buf = s.buf := rfl
@[simp] theorem emitAll_wptr (ws : List IOW) (s : State) : (emitAll ws s).wptr = s.wptr := rfl
@[simp] theorem emitAll_rptr (ws : List IOW) (s : State) : (emitAll ws s).rptr = s.rptr := rfl
@[simp] theorem emitAll_imask (ws : List IOW) (s : State) : (emitAll ws s).imask = s.imask := rfl
@[simp] theorem emitAll_init (ws : List IOW) (s : State) : (emitAll ws s).init = s.init := rfl
@[simp] theorem emitAll_out (ws : List IOW) (s : State) : (emitAll ws s).out = s.out ++ ws := rfl
@[simp] theorem emitAll_resp (ws : List IOW) (s : State) : (emitAll ws s).resp = s.resp := rfl
@[simp] theorem emitAll_port (ws : List IOW) (s : State) : (emitAll ws s).port = s.port := rfl
@[simp] theorem emitAll_past (ws : List IOW) (s : State) : (emitAll ws s).past = s.past := rfl
@[simp] theorem emitAll_draw (ws : List IOW) (s : State) : (emitAll ws s).draw = s.draw := rfl

/-! ### `emit` -/

@[simp] theorem emit_cfg (p : Port) (v : Byte) (s : State) : (emit p v s).cfg = s.cfg := rfl
@[simp] theorem emit_mod (p : Port) (v : Byte) (s : State) : (emit p v s).mod = s.mod := rfl
@[simp] theorem emit_halt (p : Port) (v : Byte) (s : State) : (emit p v s).halt = s.halt := rfl
@[simp] theorem emit_buf (p : Port) (v : Byte) (s : State) : (emit p v s).buf = s.buf := rfl
@[simp] theorem emit_wptr (p : Port) (v : Byte) (s : State) : (emit p v s).wptr = s.wptr := rfl
@[simp] theorem emit_rptr (p : Port) (v : Byte) (s : State) : (emit p v s).rptr = s.rptr := rfl
@[simp] theorem emit_imask (p : Port) (v : Byte) (s : State) : (emit p v s).imask = s.imask := rfl
@[simp] theorem emit_init (p : Port) (v : Byte) (s : State) : (emit p v s).init = s.init := rfl
@[simp] theorem emit_out (p : Port) (v : Byte) (s : State) : (emit p v s).out = s.out ++ [⟨p, v⟩] := rfl
@[simp] theorem emit_resp (p : Port) (v : Byte) (s : State) : (emit p v s).resp = s.resp := rfl
@[simp] theorem emit_port (p : Port) (v : Byte) (s : State) : (emit p v s).port = s.port := rfl
@[simp] theorem emit_past (p : Port) (v : Byte) (s : State) : (emit p v s).past = s.past := rfl
@[simp] theorem emit_draw (p : Port) (v : Byte) (s : State) : (emit p v s).draw = s.draw := rfl

/-! ### `respond` -/

@[simp] theorem respond_cfg (r : Word) (s : State) : (respond r s).cfg = s.cfg := rfl
@[simp] theorem respond_mod (r : Word) (s : State) : (respond r s).mod = s.mod := rfl
@[simp] theorem respond_halt (r : Word) (s : State) : (respond r s).halt = s.halt := rfl
@[simp] theorem respond_buf (r : Word) (s : State) : (respond r s).buf = s.buf := rfl
@[simp] theorem respond_wptr (r : Word) (s : State) : (respond r s).wptr = s.wptr := rfl
@[simp] theorem respond_rptr (r : Word) (s : State) : (respond r s).rptr = s.rptr := rfl
@[simp] theorem respond_imask (r : Word) (s : State) : (respond r s).imask = s.imask := rfl
@[simp] theorem respond_init (r : Word) (s : State) : (respond r s).init = s.init := rfl
@[simp] theorem respond_out (r : Word) (s : State) : (respond r s).out = s.out := rfl
@[simp] theorem respond_resp (r : Word) (s : State) : (respond r s).resp = r := rfl
@[simp] theorem respond_port (r : Word) (s : State) : (respond r s).port = s.port := rfl
@[simp] theorem respond_past (r : Word) (s : State) : (respond r s).past = s.past := rfl
@[simp] theorem respond_draw (r : Word) (s : State) : (respond r s).draw = s.draw := rfl

/-! ### `resetRequest` -/

@[simp] theorem resetRequest_cfg (m : ModBits) (s : State) : (resetRequest m s).cfg = s.cfg := rfl
@[simp] theorem resetRequest_mod (m : ModBits) (s : State) : (resetRequest m s).mod = m := rfl
@[simp] theorem resetRequest_halt (m : ModBits) (s : State) : (resetRequest m s).halt = true := rfl
@[simp] theorem resetRequest_buf (m : ModBits) (s : State) : (resetRequest m s).buf = s.buf := rfl
@[simp] theorem resetRequest_wptr (m : ModBits) (s : State) : (resetRequest m s).wptr = s.wptr := rfl
@[simp] theorem resetRequest_rptr (m : ModBits) (s : State) : (resetRequest m s).rptr = s.rptr := rfl
@[simp] theorem resetRequest_imask (m : ModBits) (s : State) : (resetRequest m s).imask = s.imask := rfl
@[simp] theorem resetRequest_init (m : ModBits) (s : State) : (resetRequest m s).init = s.init := rfl
@[simp] theorem resetRequest_out (m : ModBits) (s : State) : (resetRequest m s).out = s.out ++ [⟨s.cfg.resetPort, s.cfg.resetCmd⟩] := rfl
@[simp] theorem resetRequest_resp (m : ModBits) (s : State) : (resetRequest m s).resp = s.resp := rfl
@[simp] theorem resetRequest_port (m : ModBits) (s : State) : (resetRequest m s).port = s.port := rfl
@[simp] theorem resetRequest_past (m : ModBits) (s : State) : (resetRequest m s).past = s.past := rfl
@[simp] theorem resetRequest_draw (m : ModBits) (s : State) : (resetRequest m s).draw = s.draw := rfl

/-! ### `hardwareReset` -/

@[simp] theorem hardwareReset_cfg (s : State) : (hardwareReset s).cfg = s.cfg := rfl
@[simp] theorem hardwareReset_mod (s : State) : (hardwareReset s).mod = 0#7 := rfl
@[simp] theorem hardwareReset_halt (s : State) : (hardwareReset s).halt = false := rfl
@[simp] theorem hardwareReset_buf (s : State) : (hardwareReset s).buf = [] := rfl
@[simp] theorem hardwareReset_wptr (s : State) : (hardwareReset s).wptr = 0 := rfl
@[simp] theorem hardwareReset_rptr (s : State) : (hardwareReset s).rptr = 0 := rfl
@[simp] theorem hardwareReset_imask (s : State) : (hardwareReset s).imask = s.cfg.imaskReset := rfl
@[simp] theorem hardwareReset_init (s : State) : (hardwareReset s).init = false := rfl
@[simp] theorem hardwareReset_out (s : State) : (hardwareReset s).out = [] := rfl
@[simp] theorem hardwareReset_resp (s : State) : (hardwareReset s).resp = 0#16 := rfl
@[simp] theorem hardwareReset_port (s : State) : (hardwareReset s).port = s.port := rfl
@[simp] theorem hardwareReset_past (s : State) : (hardwareReset s).past = s.past ++ s.out := rfl
@[simp] theorem hardwareReset_draw (s : State) : (hardwareReset s).draw = s.draw := rfl

/-! ### `powerCycle` -/

@[simp] theorem powerCycle_cfg (s : State) : (powerCycle s).cfg = s.cfg := rfl
@[simp] theorem powerCycle_mod (s : State) : (powerCycle s).mod = 0#7 := rfl
@[simp] theorem powerCycle_halt (s : State) : (powerCycle s).halt = false := rfl
@[simp] theorem powerCycle_buf (s : State) : (powerCycle s).buf = [] := rfl
@[simp] theorem powerCycle_wptr (s : State) : (powerCycle s).wptr = 0 := rfl
@[simp] theorem powerCycle_rptr (s : State) : (powerCycle s).rptr = 0 := rfl
@[simp] theorem powerCycle_imask (s : State) : (powerCycle s).imask = s.cfg.imaskReset := rfl
@[simp] theorem powerCycle_init (s : State) : (powerCycle s).init = false := rfl
@[simp] theorem powerCycle_out (s : State) : (powerCycle s).out = [] := rfl
@[simp] theorem powerCycle_resp (s : State) : (powerCycle s).resp = 0#16 := rfl
@[simp] theorem powerCycle_port (s : State) : (powerCycle s).port = s.port := rfl
@[simp] theorem powerCycle_past (s : State) : (powerCycle s).past = [] := rfl
@[simp] theorem powerCycle_draw (s : State) : (powerCycle s).draw = s.draw + 1 := rfl

/-! ### `State.resetWith` -/

@[simp] theorem State.resetWith_cfg (c : Config) (p : List HostInput) (l : List IOW) (n : Nat) : (State.resetWith c p l n).cfg = c := rfl
@[simp] theorem State.resetWith_mod (c : Config) (p : List HostInput) (l : List IOW) (n : Nat) : (State.resetWith c p l n).mod = 0#7 := rfl
@[simp] theorem State.resetWith_halt (c : Config) (p : List HostInput) (l : List IOW) (n : Nat) : (State.resetWith c p l n).halt = false := rfl
@[simp] theorem State.resetWith_buf (c : Config) (p : List HostInput) (l : List IOW) (n : Nat) : (State.resetWith c p l n).buf = [] := rfl
@[simp] theorem State.resetWith_wptr (c : Config) (p : List HostInput) (l : List IOW) (n : Nat) : (State.resetWith c p l n).wptr = 0 := rfl
@[simp] theorem State.resetWith_rptr (c : Config) (p : List HostInput) (l : List IOW) (n : Nat) : (State.resetWith c p l n).rptr = 0 := rfl
@[simp] theorem State.resetWith_imask (c : Config) (p : List HostInput) (l : List IOW) (n : Nat) : (State.resetWith c p l n).imask = c.imaskReset := rfl
@[simp] theorem State.resetWith_init (c : Config) (p : List HostInput) (l : List IOW) (n : Nat) : (State.resetWith c p l n).init = false := rfl
@[simp] theorem State.resetWith_out (c : Config) (p : List HostInput) (l : List IOW) (n : Nat) : (State.resetWith c p l n).out = [] := rfl
@[simp] theorem State.resetWith_resp (c : Config) (p : List HostInput) (l : List IOW) (n : Nat) : (State.resetWith c p l n).resp = 0#16 := rfl
@[simp] theorem State.resetWith_port (c : Config) (p : List HostInput) (l : List IOW) (n : Nat) : (State.resetWith c p l n).port = p := rfl
@[simp] theorem State.resetWith_past (c : Config) (p : List HostInput) (l : List IOW) (n : Nat) : (State.resetWith c p l n).past = l := rfl
@[simp] theorem State.resetWith_draw (c : Config) (p : List HostInput) (l : List IOW) (n : Nat) : (State.resetWith c p l n).draw = n := rfl

/-! ### `State.withFetchWord` -/

@[simp] theorem State.withFetchWord_cfg (s : State) (n w : Nat) : (s.withFetchWord n w).cfg = s.cfg := rfl
@[simp] theorem State.withFetchWord_mod (s : State) (n w : Nat) : (s.withFetchWord n w).mod = s.mod := rfl
@[simp] theorem State.withFetchWord_halt (s : State) (n w : Nat) : (s.withFetchWord n w).halt = s.halt := rfl
@[simp] theorem State.withFetchWord_buf (s : State) (n w : Nat) : (s.withFetchWord n w).buf = s.buf := rfl
@[simp] theorem State.withFetchWord_wptr (s : State) (n w : Nat) : (s.withFetchWord n w).wptr = s.wptr := rfl
@[simp] theorem State.withFetchWord_rptr (s : State) (n w : Nat) : (s.withFetchWord n w).rptr = s.rptr := rfl
@[simp] theorem State.withFetchWord_imask (s : State) (n w : Nat) : (s.withFetchWord n w).imask = s.imask := rfl
@[simp] theorem State.withFetchWord_init (s : State) (n w : Nat) : (s.withFetchWord n w).init = s.init := rfl
@[simp] theorem State.withFetchWord_out (s : State) (n w : Nat) : (s.withFetchWord n w).out = s.out := rfl
@[simp] theorem State.withFetchWord_resp (s : State) (n w : Nat) : (s.withFetchWord n w).resp = s.resp := rfl
@[simp] theorem State.withFetchWord_port (s : State) (n w : Nat) : (s.withFetchWord n w).port = .command (tableWord n w) :: s.port := rfl
@[simp] theorem State.withFetchWord_past (s : State) (n w : Nat) : (s.withFetchWord n w).past = s.past := rfl
@[simp] theorem State.withFetchWord_draw (s : State) (n w : Nat) : (s.withFetchWord n w).draw = s.draw := rfl

/-! ### `maskWrite` -/

/-- `MaskWrite` only appends the mask's two bytes to `OUT`. -/
@[simp] theorem maskWrite_eq (s : State) :
    maskWrite s = emitAll [⟨s.cfg.pic1Data, lowByte s.imask⟩, ⟨s.cfg.pic2Data, highByte s.imask⟩] s := by
  simp [maskWrite, emit, emitAll]

/-! ### The controllers -/

/-- What a controller is after more writes. -/
theorem pic_emitAll (ws : List IOW) (s : State) (u : PicUnit) :
    (emitAll ws s).pic u = ws.foldl (picTake s.cfg u) (s.pic u) := by
  simp [State.pic, ← List.append_assoc]

/-- A controller's state depends on these four fields only. -/
theorem pic_congr {s t : State} (hc : t.cfg = s.cfg) (hp : t.past = s.past) (ho : t.out = s.out) (hd : t.draw = s.draw)
    (u : PicUnit) : t.pic u = s.pic u := by
  simp [State.pic, hc, hp, ho, hd]

/-- A reset leaves the controllers as they were (R230). -/
theorem pic_hardwareReset (s : State) (u : PicUnit) : (hardwareReset s).pic u = s.pic u := by
  simp [State.pic]

end Sys2Proof.Machine
end

