-- ==== Sys2Proof/Laws/Mask.lean ====
section
/-! SUPPORT. The bits of the interrupt mask (spec 40_irq_mask R101, R102, R113). -/

namespace Sys2Proof.Machine

/-- The range check is the comparison with 16. -/
@[simp] theorem irqInRange_iff (irq : Byte) : irqInRange irq = true ↔ irq.toNat < 16 := by
  simp [irqInRange, NIRQ]

/-- The range check fails from 16 on. -/
@[simp] theorem irqInRange_eq_false_iff (irq : Byte) : irqInRange irq = false ↔ 16 ≤ irq.toNat := by
  simp [irqInRange, NIRQ]

/-- The one-hot value of a line has that bit only. -/
theorem oneHot_getLsbD {irq : Byte} (h : irq.toNat < 16) (n : Nat) : (oneHot irq).getLsbD n = (n == irq.toNat) := by
  have h1 : ∀ k, (1#16).getLsbD k = (k == 0) := by
    intro k
    by_cases hk : k < 16
    · interval_cases k <;> rfl
    · rw [BitVec.getLsbD_of_ge _ _ (by omega)]
      simpa using (by omega : k ≠ 0)
  unfold oneHot
  rw [BitVec.getLsbD_shiftLeft, h1]
  rw [Bool.eq_iff_iff]
  simp
  omega

/-- Clearing a line clears its bit and keeps every other one. -/
theorem maskCleared_getLsbD {v : Word} {irq : Byte} (h : irq.toNat < 16) (n : Nat) :
    (maskCleared v irq).getLsbD n = (v.getLsbD n && n != irq.toNat) := by
  unfold maskCleared
  by_cases hn : n < 16
  · rw [BitVec.getLsbD_and, BitVec.getLsbD_not, oneHot_getLsbD h]
    simp [hn, bne]
  · simp [BitVec.getLsbD_of_ge _ _ (by omega : 16 ≤ n)]

end Sys2Proof.Machine
end

