-- ==== Sys2Proof/Laws/Memory.lean ====
section
/-! SUPPORT. The laws of the ring storage: what a read finds after a write, and that every write keeps the one form. -/

namespace Sys2Proof.Machine

/-- A list in the form lists no slot at or below its first. -/
theorem Memory.wf_cons {c : Host.Cell} {r : List Host.Cell} :
    Memory.wf (c :: r) = true ↔ c.2 ≠ unwrittenSlot ∧ (∀ d ∈ r, c.1 < d.1) ∧ Memory.wf r = true := by
  induction r generalizing c with
  | nil => simp [Memory.wf]
  | cons d r ih =>
    simp only [Memory.wf, Bool.and_eq_true, decide_eq_true_eq, bne_iff_ne, List.mem_cons]
    constructor
    · rintro ⟨⟨h1, h2⟩, h3⟩
      refine ⟨h2, ?_, h3⟩
      rintro e (rfl | he)
      · exact h1
      · exact lt_trans h1 ((ih.mp h3).2.1 e he)
    · rintro ⟨h1, h2, h3⟩
      exact ⟨⟨h2 d (.inl rfl), h1⟩, h3⟩

/-- A slot that no entry lists reads as unwritten. -/
theorem Memory.read_of_not_listed {m : List Host.Cell} {a : Nat} (h : ∀ c ∈ m, c.1 ≠ a) :
    Memory.read m a = unwrittenSlot := by
  induction m with
  | nil => rfl
  | cons c r ih =>
    have hc : c.1 ≠ a := h c (by simp)
    simp only [Memory.read, hc, if_false]
    exact ih fun d hd => h d (by simp [hd])

/-- A slot that reads as anything but unwritten is listed. -/
theorem Memory.listed_of_read {m : List Host.Cell} {a : Nat} (h : Memory.read m a ≠ unwrittenSlot) :
    (a, Memory.read m a) ∈ m := by
  induction m with
  | nil => exact absurd rfl h
  | cons c r ih =>
    by_cases hc : c.1 = a
    · subst hc; simp [Memory.read]
    · simp only [Memory.read, hc, if_false] at h ⊢
      exact List.mem_cons_of_mem _ (ih h)

/-- Every slot of a written storage was listed before, or is the one written. -/
theorem Memory.mem_write {m : List Host.Cell} {a : Nat} {v : Byte} {c : Host.Cell}
    (h : c ∈ Memory.write m a v) : c ∈ m ∨ (c = (a, v) ∧ v ≠ unwrittenSlot) := by
  induction m with
  | nil =>
    simp only [Memory.write] at h
    split at h <;> simp_all
  | cons d r ih =>
    simp only [Memory.write] at h
    split at h
    · split at h
      · exact .inl h
      · rcases List.mem_cons.mp h with h' | h' <;> simp_all
    · split at h
      · split at h
        · exact .inl (List.mem_cons_of_mem _ h)
        · rcases List.mem_cons.mp h with h' | h' <;> simp_all
      · rcases List.mem_cons.mp h with h' | h'
        · exact .inl (by simp [h'])
        · rcases ih h' with h'' | h''
          · exact .inl (List.mem_cons_of_mem _ h'')
          · exact .inr h''

/-- Every write keeps the form. -/
theorem Memory.write_wf {m : List Host.Cell} (a : Nat) (v : Byte) (h : Memory.wf m = true) :
    Memory.wf (Memory.write m a v) = true := by
  induction m with
  | nil =>
    simp only [Memory.write]
    split
    · rfl
    · simpa [Memory.wf] using ‹¬v = unwrittenSlot›
  | cons d r ih =>
    obtain ⟨h1, h2, h3⟩ := Memory.wf_cons.mp h
    simp only [Memory.write]
    split
    · split
      · exact h
      · refine Memory.wf_cons.mpr ⟨‹_›, ?_, h⟩
        intro e he
        rcases List.mem_cons.mp he with rfl | he
        · assumption
        · exact lt_trans ‹a < d.1› (h2 e he)
    · split
      · split
        · exact h3
        · refine Memory.wf_cons.mpr ⟨‹_›, ?_, h3⟩
          intro e he
          have := h2 e he
          simp only
          omega
      · refine Memory.wf_cons.mpr ⟨h1, ?_, ih h3⟩
        intro e he
        rcases Memory.mem_write he with he | ⟨rfl, -⟩
        · exact h2 e he
        · simp only; omega

/-- A write leaves every other slot alone. -/
@[simp] theorem Memory.read_write_other {m : List Host.Cell} {a b : Nat} {v : Byte} (h : b ≠ a) :
    Memory.read (Memory.write m a v) b = Memory.read m b := by
  induction m with
  | nil =>
    simp only [Memory.write]
    split
    · rfl
    · simp [Memory.read, h.symm]
  | cons d r ih =>
    simp only [Memory.write]
    split
    · split
      · rfl
      · simp [Memory.read, h.symm]
    · split
      · rename_i hd
        subst hd
        split <;> simp [Memory.read, h.symm]
      · simp [Memory.read, ih]

/-- A read after a write of a byte other than the unwritten one gives the byte, in any list. -/
theorem Memory.read_write_of_ne {m : List Host.Cell} {a : Nat} {v : Byte} (hv : v ≠ unwrittenSlot) :
    Memory.read (Memory.write m a v) a = v := by
  induction m with
  | nil => simp [Memory.write, Memory.read, hv]
  | cons d r ih =>
    simp only [Memory.write, hv, if_false]
    split
    · simp [Memory.read]
    · split
      · simp [Memory.read]
      · rename_i hd
        simp [Memory.read, Ne.symm hd, ih]

/-- A read after a write gives the byte written. -/
@[simp] theorem Memory.read_write_same {m : List Host.Cell} {a : Nat} {v : Byte} (h : Memory.wf m = true) :
    Memory.read (Memory.write m a v) a = v := by
  by_cases hv : v = unwrittenSlot
  · subst hv
    induction m with
    | nil => simp [Memory.write, Memory.read]
    | cons d r ih =>
      obtain ⟨-, h2, h3⟩ := Memory.wf_cons.mp h
      simp only [Memory.write, if_true]
      split
      · apply Memory.read_of_not_listed
        intro c hc
        rcases List.mem_cons.mp hc with rfl | hc
        · omega
        · have := h2 c hc; omega
      · split
        · apply Memory.read_of_not_listed
          intro c hc
          have := h2 c hc
          omega
        · rename_i hd
          simp [Memory.read, Ne.symm hd, ih h3]
  · exact Memory.read_write_of_ne hv

/-- The storage after reset is in the form. -/
theorem Memory.wf_reset : Memory.wf State.reset.buf = true := rfl

end Sys2Proof.Machine
end

