-- ==== Sys2Proof/Laws/Ring.lean ====
section
/-! SUPPORT. The laws of the ring's pointers and of `RingPush` and `RingPop`: pointer arithmetic without a remainder, and what each primitive can do. -/

namespace Sys2Proof.Machine

/-! ### Pointer arithmetic (R182) -/

/-- A value already in range is kept. -/
theorem wrap_of_lt {s : State} {x : Int} (h0 : 0 ≤ x) (h1 : x < 2 * s.cfg.cap) : wrap s x = x.toNat := by
  unfold wrap
  rw [Int.emod_eq_of_lt h0 h1]

/-- A value one range above is brought down by `2*CAP`. -/
theorem wrap_of_ge {s : State} {x : Int} (h0 : 2 * (s.cfg.cap : Int) ≤ x) (h1 : x < 4 * s.cfg.cap) :
    wrap s x = (x - 2 * s.cfg.cap).toNat := by
  unfold wrap
  rw [← Int.sub_emod_right, Int.emod_eq_of_lt (by omega) (by omega)]

/-- A value one range below is brought up by `2*CAP`. -/
theorem wrap_of_neg {s : State} {x : Int} (h0 : -(2 * (s.cfg.cap : Int)) ≤ x) (h1 : x < 0) :
    wrap s x = (x + 2 * s.cfg.cap).toNat := by
  unfold wrap
  rw [← Int.add_emod_right, Int.emod_eq_of_lt (by omega) (by omega)]

/-- No pointer leaves `[0, 2*CAP)` (R182). -/
theorem wrap_lt {s : State} (x : Int) (hc : 0 < s.cfg.cap) : wrap s x < 2 * s.cfg.cap := by
  unfold wrap
  have h1 := Int.emod_nonneg x (b := 2 * (s.cfg.cap : Int)) (by omega)
  have h2 := Int.emod_lt_of_pos x (b := 2 * (s.cfg.cap : Int)) (by omega)
  omega

/-- Every slot is in range (R61, R62). -/
theorem slot_lt {s : State} (p : Nat) (hc : 0 < s.cfg.cap) : slot s p < s.cfg.cap := Nat.mod_lt _ hc

/-- The slot of a pointer in range. -/
theorem slot_eq {s : State} {p : Nat} (h : p < 2 * s.cfg.cap) :
    slot s p = if p < s.cfg.cap then p else p - s.cfg.cap := by
  unfold slot
  split
  · exact Nat.mod_eq_of_lt ‹_›
  · rw [Nat.mod_eq_sub_mod (by omega), Nat.mod_eq_of_lt (by omega)]

/-- `FILL` of two pointers in range. -/
theorem fill_eq {s : State} (hw : s.wptr < 2 * s.cfg.cap) (hr : s.rptr < 2 * s.cfg.cap) :
    fill s = if s.rptr ≤ s.wptr then s.wptr - s.rptr else s.wptr + 2 * s.cfg.cap - s.rptr := by
  unfold fill
  split
  · rw [wrap_of_lt (by omega) (by omega)]; omega
  · rw [wrap_of_neg (by omega) (by omega)]; omega

/-- R33 (a). -/
theorem fill_lt {s : State} (hc : 0 < s.cfg.cap) : fill s < 2 * s.cfg.cap := wrap_lt _ hc

/-- The pointer arithmetic depends on the parameters and the two pointers only. -/
theorem queue_congr {s t : State} (hc : t.cfg = s.cfg) (hb : t.buf = s.buf) (hw : t.wptr = s.wptr) (hr : t.rptr = s.rptr) :
    queue t = queue s := by
  simp [queue, count, fill, slot, wrap, hc, hb, hw, hr]

/-! ### The primitives -/

/-- R171: all that `RingPush` does, when `CAP >= 1`. -/
theorem ringPush_eq (b : Byte) {s : State} (hc : 0 < s.cfg.cap) :
    ringPush b s = .ok { s with buf := Memory.write s.buf (slot s s.wptr) b, wptr := pushedPtr s } := by
  simp [ringPush, ringWrite, slot_lt s.wptr hc]

/-- R172: all that `RingPop` does on an empty ring. -/
theorem ringPop_empty {s : State} (h : fill s = 0) : ringPop s = .ok (none, s) := by
  simp [ringPop, isEmpty, h]

/-- R172: all that `RingPop` does on a ring that holds a byte, when `CAP >= 1`. -/
theorem ringPop_some {s : State} (hc : 0 < s.cfg.cap) (h : fill s ≠ 0) :
    ringPop s = .ok (some (Memory.read s.buf (slot s (oldestPtr s))), { s with rptr := wrap s ((oldestPtr s : Int) + 1) }) := by
  simp [ringPop, isEmpty, h, ringRead, slot_lt (oldestPtr s) hc]

/-- R175: all that a producer's push does, when `CAP >= 1`. -/
theorem pushUnit_eq (b : Byte) {s : State} (hc : 0 < s.cfg.cap) :
    pushUnit b s =
      .ok (if b = 0#8 then s else { s with buf := Memory.write s.buf (slot s s.wptr) b, wptr := pushedPtr s }) := by
  unfold pushUnit
  split
  · rfl
  · rw [ringPush_eq b hc]

/-- The end of a producer command, when `CAP >= 1`. -/
theorem produce_eq (b : Byte) {s : State} (hc : 0 < s.cfg.cap) :
    produce b s = .next (respond (producerResponse b)
      (if b = 0#8 then s else { s with buf := Memory.write s.buf (slot s s.wptr) b, wptr := pushedPtr s })) := by
  simp only [produce, pushUnit_eq b hc]

/-- A push that succeeds says which slots exist. -/
theorem ringPush_ok {b : Byte} {s t : State} (h : ringPush b s = .ok t) :
    slot s s.wptr < s.cfg.cap ∧
      t = { s with buf := Memory.write s.buf (slot s s.wptr) b, wptr := pushedPtr s } := by
  simp only [ringPush, ringWrite] at h
  split at h
  · cases h
  · rename_i u hu
    split at hu
    · cases hu; cases h
      exact ⟨‹_›, rfl⟩
    · cases hu

/-- The three things a producer command can do: nothing to the ring, a push, or the model's own fault. -/
theorem produce_cases (b : Byte) (s : State) :
    (b = 0#8 ∧ produce b s = .next (respond (producerResponse b) s)) ∨
      (b ≠ 0#8 ∧ slot s s.wptr < s.cfg.cap ∧
        produce b s = .next (respond (producerResponse b)
          { s with buf := Memory.write s.buf (slot s s.wptr) b, wptr := pushedPtr s })) ∨
      (b ≠ 0#8 ∧ produce b s = .fault (.noSuchSlot (slot s s.wptr))) := by
  unfold produce pushUnit ringPush ringWrite
  by_cases hb : b = 0#8
  · simp [hb]
  · by_cases hs : slot s s.wptr < s.cfg.cap
    · simp [hb, hs]
    · simp [hb, hs]

end Sys2Proof.Machine
end

