-- ==== Sys2Proof/Laws/Exec.lean ====
section
/-! SUPPORT. What each meaning can do, said once: later proofs cite these and do not unfold a meaning. -/

namespace Sys2Proof.Machine

/-- `KBD_IN` raises the reset request exactly when the decoder says so, whatever the parameters. -/
theorem execKbdIn_rst {code : Byte} {s : State} (h : (kdec s.cfg code s.mod).rst = true) :
    execKbdIn code s = .next (resetRequest (kdec s.cfg code s.mod).mod s) := by
  simp [execKbdIn, h]

/-- `KBD_IN` without the reset request is the producer's push of the character, with the new `MOD`. -/
theorem execKbdIn_no_rst {code : Byte} {s : State} (h : (kdec s.cfg code s.mod).rst = false) :
    execKbdIn code s = produce (kdec s.cfg code s.mod).char { s with mod := (kdec s.cfg code s.mod).mod } := by
  simp [execKbdIn, h]

/-- `POP` on an empty ring. -/
theorem execPop_empty {s : State} (h : fill s = 0) : execPop s = .next (respond 0#16 s) := by
  simp [execPop, ringPop_empty h, popResponse]

/-- `POP` on a ring that holds a byte, when `CAP >= 1`. -/
theorem execPop_some {s : State} (hc : 0 < s.cfg.cap) (h : fill s ≠ 0) :
    execPop s = .next (respond (response true (Memory.read s.buf (slot s (oldestPtr s))))
      { s with rptr := wrap s ((oldestPtr s : Int) + 1) }) := by
  simp [execPop, ringPop_some hc h, popResponse]

/-- `IRQ_ENABLE` of a line below 16. -/
theorem execIrqEnable_inRange {irq : Byte} {s : State} (h : irqInRange irq = true) :
    execIrqEnable irq s = .next (respond 0#16 (emitAll
      (if s.init then [⟨s.cfg.pic1Data, lowByte (maskCleared s.imask irq)⟩, ⟨s.cfg.pic2Data, highByte (maskCleared s.imask irq)⟩]
        else []) { s with imask := maskCleared s.imask irq })) := by
  cases hi : s.init <;> simp [execIrqEnable, h, hi, emitAll]

/-- `IRQ_ENABLE` of a line of 16 or more. -/
theorem execIrqEnable_outOfRange {irq : Byte} {s : State} (h : irqInRange irq = false) :
    execIrqEnable irq s = .next (respond 0#16 s) := by
  simp [execIrqEnable, h]

/-- The state after a push of `b`. -/
abbrev pushed (b : Byte) (s : State) : State :=
  { s with buf := Memory.write s.buf (slot s s.wptr) b, wptr := pushedPtr s }

/-- The ten things a command that answers a next state can do. -/
inductive ExecEffect (s : State) : Instr → State → Prop where
  | resetRequest (code : Byte) (d : Decoding) (hd : kdec s.cfg code s.mod = d) (hr : d.rst = true) :
      ExecEffect s (.kbdIn code) (resetRequest d.mod s)
  | noCharacter (code : Byte) (d : Decoding) (hd : kdec s.cfg code s.mod = d) (hr : d.rst = false) (hb : d.char = 0#8) :
      ExecEffect s (.kbdIn code) (respond (producerResponse 0#8) { s with mod := d.mod })
  | character (code : Byte) (d : Decoding) (hd : kdec s.cfg code s.mod = d) (hr : d.rst = false) (hb : d.char ≠ 0#8)
      (hs : slot s s.wptr < s.cfg.cap) :
      ExecEffect s (.kbdIn code) (respond (producerResponse d.char) (pushed d.char { s with mod := d.mod }))
  | serialZero : ExecEffect s (.serIn 0#8) (respond (producerResponse 0#8) s)
  | serialByte (b : Byte) (hb : b ≠ 0#8) (hs : slot s s.wptr < s.cfg.cap) :
      ExecEffect s (.serIn b) (respond (producerResponse b) (pushed b s))
  | popEmpty (hf : fill s = 0) : ExecEffect s .pop (respond 0#16 s)
  | popByte (hf : fill s ≠ 0) (hs : slot s (oldestPtr s) < s.cfg.cap) :
      ExecEffect s .pop (respond (response true (Memory.read s.buf (slot s (oldestPtr s))))
        { s with rptr := wrap s ((oldestPtr s : Int) + 1) })
  | irqCleared (irq : Byte) (hi : irqInRange irq = true) :
      ExecEffect s (.irqEnable irq) (respond 0#16 (emitAll
        (if s.init then [⟨s.cfg.pic1Data, lowByte (maskCleared s.imask irq)⟩, ⟨s.cfg.pic2Data, highByte (maskCleared s.imask irq)⟩]
          else []) { s with imask := maskCleared s.imask irq }))
  | irqRejected (irq : Byte) (hi : irqInRange irq = false) : ExecEffect s (.irqEnable irq) (respond 0#16 s)
  | programmed (base : Byte) :
      ExecEffect s (.picInit base) (respond 0#16 (emitAll (picSequence s.cfg base s.imask) { s with init := true }))

/-- A producer command that answers a next state. -/
theorem produce_next {b : Byte} {s t : State} (h : produce b s = .next t) :
    (b = 0#8 ∧ t = respond (producerResponse 0#8) s) ∨
      (b ≠ 0#8 ∧ slot s s.wptr < s.cfg.cap ∧ t = respond (producerResponse b) (pushed b s)) := by
  rcases produce_cases b s with ⟨rfl, h'⟩ | ⟨hb, hs, h'⟩ | ⟨-, h'⟩
  · rw [h'] at h; cases h
    exact .inl ⟨rfl, rfl⟩
  · rw [h'] at h; cases h
    exact .inr ⟨hb, hs, rfl⟩
  · rw [h'] at h; cases h

/-- `POP` that answers a next state. -/
theorem execPop_next {s t : State} (h : execPop s = .next t) : ExecEffect s .pop t := by
  by_cases hf : fill s = 0
  · rw [execPop_empty hf] at h; cases h
    exact .popEmpty hf
  · by_cases hs : slot s (oldestPtr s) < s.cfg.cap
    · have : execPop s = .next (respond (response true (Memory.read s.buf (slot s (oldestPtr s))))
          { s with rptr := wrap s ((oldestPtr s : Int) + 1) }) := by
        simp [execPop, ringPop, isEmpty, hf, ringRead, hs, popResponse]
      rw [this] at h; cases h
      exact .popByte hf hs
    · simp [execPop, ringPop, isEmpty, hf, ringRead, hs] at h

/-- All that a command that answers a next state can have done. -/
theorem exec_effect {i : Instr} {s t : State} (h : exec i s = .next t) : ExecEffect s i t := by
  cases i with
  | kbdIn code =>
    change execKbdIn code s = _ at h
    cases hr : (kdec s.cfg code s.mod).rst with
    | true =>
      rw [execKbdIn_rst hr] at h; cases h
      exact .resetRequest code _ rfl hr
    | false =>
      rw [execKbdIn_no_rst hr] at h
      rcases produce_next h with ⟨hb, rfl⟩ | ⟨hb, hs, rfl⟩
      · exact .noCharacter code _ rfl hr hb
      · exact .character code _ rfl hr hb hs
  | serIn b =>
    change produce b s = _ at h
    rcases produce_next h with ⟨rfl, rfl⟩ | ⟨hb, hs, rfl⟩
    · exact .serialZero
    · exact .serialByte b hb hs
  | pop => exact execPop_next h
  | irqEnable irq =>
    change execIrqEnable irq s = _ at h
    cases hi : irqInRange irq with
    | true =>
      rw [execIrqEnable_inRange hi] at h; cases h
      exact .irqCleared irq hi
    | false =>
      rw [execIrqEnable_outOfRange hi] at h; cases h
      exact .irqRejected irq hi
  | picInit base =>
    cases h
    exact .programmed base

/-- The command port answers a next state only by running a command while `HALT` is 0. -/
theorem runWord_next {w : Word} {s t : State} (h : runWord w s = .next t) :
    s.halt = false ∧ ∃ i, decode w = .command i ∧ exec i s = .next t := by
  unfold runWord at h
  split at h
  · cases h
  · split at h
    · cases h
    · exact ⟨by simpa using ‹¬s.halt = true›, _, ‹_›, h⟩

/-- The five things a step that answers a next state can do. -/
theorem step_cases {s t : State} (h : step s = .next t) :
    (s.port = [] ∧ t = s) ∨
      ∃ x rest, s.port = x :: rest ∧
        ((∃ w i, x = .command w ∧ s.halt = false ∧ decode w = .command i ∧ exec i { s with port := rest } = .next t) ∨
          (∃ p b k, x = .together p b k ∧ t = { s with port := (serialOrder p b k).map present ++ rest }) ∨
          (x = .reset ∧ t = hardwareReset { s with port := rest }) ∨
          (x = .powerOn ∧ t = powerCycle { s with port := rest })) := by
  unfold step takeNext at h
  split at h
  · cases h
    exact .inl ⟨‹_›, rfl⟩
  · rename_i x rest hp
    refine .inr ⟨x, rest, hp, ?_⟩
    cases x with
    | command w =>
      obtain ⟨h1, i, h2, h3⟩ := runWord_next h
      exact .inl ⟨w, i, rfl, h1, h2, h3⟩
    | together p b k =>
      cases h
      exact .inr (.inl ⟨p, b, k, rfl, rfl⟩)
    | reset =>
      cases h
      exact .inr (.inr (.inl ⟨rfl, rfl⟩))
    | powerOn =>
      cases h
      exact .inr (.inr (.inr ⟨rfl, rfl⟩))

end Sys2Proof.Machine
end

