-- ==== Sys2Proof/Laws/PerInstr.lean ====
section
/-! SUPPORT. The statements made of every command as text: the fields of its word (spec 30_encoding R80, R84, R86). -/

namespace Sys2Proof.Laws.WordFields

/-- The word of a command has the command's opcode, a zero `RSV` field and the command's operand, and its fields are well formed. -/
def Statement (i : Instr) : Prop := CF.ofWord (encode i) = i.fields ∧ i.fields.wf = true

/-- The fields of an assembled word are the ones it was assembled from. -/
theorem ofWord_toWord (f : CF) : CF.ofWord f.toWord = f := by
  obtain ⟨o, r, a⟩ := f
  simp only [CF.ofWord, CF.toWord, CF.mk.injEq]
  refine ⟨?_, ?_, ?_⟩
  all_goals
    ext i hi
    rw [BitVec.getElem_extractLsb']
    simp only [BitVec.getLsbD_append]
    grind

theorem kbdIn (code : Byte) : Statement (.kbdIn code) := ⟨ofWord_toWord _, by simp [Instr.fields, Instr.opc, CF.wf, CF.rsvOk, CF.opcOk, CF.popOk]⟩
theorem serIn (b : Byte) : Statement (.serIn b) := ⟨ofWord_toWord _, by simp [Instr.fields, Instr.opc, CF.wf, CF.rsvOk, CF.opcOk, CF.popOk]⟩
theorem pop : Statement .pop := ⟨ofWord_toWord _, by decide⟩
theorem irqEnable (irq : Byte) : Statement (.irqEnable irq) := ⟨ofWord_toWord _, by simp [Instr.fields, Instr.opc, CF.wf, CF.rsvOk, CF.opcOk, CF.popOk]⟩
theorem picInit (base : Byte) : Statement (.picInit base) := ⟨ofWord_toWord _, by simp [Instr.fields, Instr.opc, CF.wf, CF.rsvOk, CF.opcOk, CF.popOk]⟩

end Sys2Proof.Laws.WordFields
end

