-- ==== Sys2Proof/Laws/Run.lean ====
section
/-! SUPPORT. What the run of a sequence of commands and of the host's stream can do: later proofs cite these and do not unfold `issue` or `runStream`. -/

namespace Sys2Proof.Machine

section mapAnswer

variable {α β : Type} (f : α → β)

@[simp] theorem mapAnswer_done (a : α) (s : State) : (RunEnd.done a s).mapAnswer f = .done (f a) s := rfl
@[simp] theorem mapAnswer_resetRequest (s : State) : (RunEnd.resetRequest s : RunEnd α).mapAnswer f = .resetRequest s := rfl
@[simp] theorem mapAnswer_refused (r : Refusal) : (RunEnd.refused r : RunEnd α).mapAnswer f = .refused r := rfl
@[simp] theorem mapAnswer_fault (e : Fault) : (RunEnd.fault e : RunEnd α).mapAnswer f = .fault e := rfl

/-- Only a completed run answers. -/
theorem mapAnswer_eq_done {e : RunEnd α} {b : β} {s : State} : e.mapAnswer f = .done b s ↔ ∃ a, e = .done a s ∧ f a = b := by
  cases e <;> simp [and_comm]

theorem mapAnswer_eq_resetRequest {e : RunEnd α} {s : State} : e.mapAnswer f = .resetRequest s ↔ e = .resetRequest s := by
  cases e <;> simp

end mapAnswer

@[simp] theorem issue_nil (s : State) : issue [] s = .done [] s := rfl

/-- A first command that answers a next state without the reset request. -/
theorem issue_cons_next {i : Instr} {is : List Instr} {s t : State} (h : runWord (encode i) s = .next t) (hh : t.halt = false) :
    issue (i :: is) s = (issue is t).mapAnswer fun rs => t.resp :: rs := by
  simp [issue, h, hh]

/-- A first command that raises the reset request. -/
theorem issue_cons_reset {i : Instr} {is : List Instr} {s t : State} (h : runWord (encode i) s = .next t) (hh : t.halt = true) :
    issue (i :: is) s = .resetRequest t := by
  simp [issue, h, hh]

/-- A sequence that runs to its end does so one command at a time. -/
theorem issue_cons_done {i : Instr} {is : List Instr} {s u : State} {rs : List Word} (h : issue (i :: is) s = .done rs u) :
    ∃ t rs', runWord (encode i) s = .next t ∧ t.halt = false ∧ issue is t = .done rs' u ∧ rs = t.resp :: rs' := by
  simp only [issue] at h
  split at h
  · split at h
    · cases h
    · obtain ⟨rs', h', rfl⟩ := (mapAnswer_eq_done _).mp h
      exact ⟨_, rs', ‹_›, Bool.eq_false_of_not_eq_true ‹_›, h', rfl⟩
  · cases h
  · cases h

/-- A sequence that ends at the reset request ends at its first command's, or later. -/
theorem issue_cons_resetRequest {i : Instr} {is : List Instr} {s u : State} (h : issue (i :: is) s = .resetRequest u) :
    ∃ t, runWord (encode i) s = .next t ∧ ((t.halt = true ∧ u = t) ∨ (t.halt = false ∧ issue is t = .resetRequest u)) := by
  simp only [issue] at h
  split at h
  · split at h
    · cases h; exact ⟨_, ‹_›, .inl ⟨‹_›, rfl⟩⟩
    · exact ⟨_, ‹_›, .inr ⟨Bool.eq_false_of_not_eq_true ‹_›, (mapAnswer_eq_resetRequest _).mp h⟩⟩
  · cases h
  · cases h

/-- One sequence and then another. -/
theorem issue_append {is : List Instr} (js : List Instr) {s t : State} {rs : List Word} (h : issue is s = .done rs t) :
    issue (is ++ js) s = (issue js t).mapAnswer fun rs' => rs ++ rs' := by
  induction is generalizing s rs with
  | nil => cases h; rw [List.nil_append]; cases h : issue js t <;> simp
  | cons i is ih =>
    obtain ⟨u, rs', hu, hh, h', rfl⟩ := issue_cons_done h
    rw [List.cons_append, issue_cons_next hu hh, ih h']
    cases issue js t <;> simp

/-- A sequence that ends at the reset request ends there whatever follows. -/
theorem issue_append_resetRequest {is : List Instr} (js : List Instr) {s t : State} (h : issue is s = .resetRequest t) :
    issue (is ++ js) s = .resetRequest t := by
  induction is generalizing s with
  | nil => cases h
  | cons i is ih =>
    obtain ⟨u, hu, ⟨hh, rfl⟩ | ⟨hh, h'⟩⟩ := issue_cons_resetRequest h
    · exact issue_cons_reset hu hh
    · rw [List.cons_append, issue_cons_next hu hh, ih h', mapAnswer_resetRequest]

@[simp] theorem runStream_zero (s : State) : runStream 0 s = .done () s := rfl

/-- A step that raises the reset request ends the run. -/
theorem runStream_reset {s t : State} (n : Nat) (h : step s = .next t) (hs : s.halt = false) (ht : t.halt = true) :
    runStream (n + 1) s = .resetRequest t := by
  simp [runStream, h, hs, ht]

/-- Any other step goes on. -/
theorem runStream_next {s t : State} (n : Nat) (h : step s = .next t) (hh : s.halt = true ∨ t.halt = false) :
    runStream (n + 1) s = runStream n t := by
  rcases hh with hh | hh <;> simp [runStream, h, hh]

end Sys2Proof.Machine
end

