-- ==== Sys2Proof/Tests/Slice0.lean ====
section
/-! SUPPORT. The model's own tests: what the well-formedness checks refuse, words written out from the spec's encoding, steps with the results the spec's vectors give (spec
95_test_vectors, named at each test), and for each obligation with premises a concrete state and operands that meet them. -/

namespace Sys2Proof.Tests

set_option Elab.async false

open Sys2Proof Sys2Proof.Machine

/-! ### Helpers -/

/-- The reference parameters with another capacity. -/
def cfgCap (n : Nat) : Config := { refConfig with cap := n }

/-- A machine of capacity `cap` after reset, with the given pointers and storage. -/
def ringAt (cap w r : Nat) (buf : List Host.Cell) : State :=
  { State.resetWith (cfgCap cap) [] [] 0 with wptr := w, rptr := r, buf := buf }

/-- The reset state with the given modifier state. -/
def keyed (m : ModBits) : State := { State.reset with mod := m }

/-- The reset state with the given mask and initialization flag. -/
def masked (v : Word) (ini : Bool) : State := { State.reset with imask := v, init := ini }

/-- A state with the given inputs presented. -/
def State.given (s : State) (xs : List HostInput) : State := { s with port := xs }

/-- A halted machine. -/
def halted : State := { State.reset with halt := true }

/-- The machine after `PIC_INIT 0x20` from reset. -/
def programmed : State := { State.reset with init := true, out := picSequence refConfig 0x20#8 0xFFFB#16 }

/-- One look at a next state. -/
def look {α : Type} (f : State → α) : Host.Outcome State Fault Refusal → Option α
  | .next t => some (f t)
  | .fault _ => none
  | .refused _ => none

/-- The refusal, if there is one. -/
def refusalOf : Host.Outcome State Fault Refusal → Option Refusal
  | .next _ => none
  | .fault _ => none
  | .refused r => some r

/-- The response, the pointers and the byte sequence. -/
def ringView (t : State) : Word × Nat × Nat × List Byte := (t.resp, t.wptr, t.rptr, queue t)

/-- One look at the state in which a run ends, and whether it ended at the reset request. -/
def lookEnd {α β : Type} (f : State → β) : RunEnd α → Option (Bool × β)
  | .done _ s => some (false, f s)
  | .resetRequest s => some (true, f s)
  | .refused _ => none
  | .fault _ => none

/-- The answer of a completed run. -/
def answerOf {α : Type} : RunEnd α → Option α
  | .done a _ => some a
  | .resetRequest _ => none
  | .refused _ => none
  | .fault _ => none

theorem ends_done {α : Type} {e : RunEnd α} (h : lookEnd (fun _ => ()) e = some (false, ())) : ∃ a t, e = .done a t := by
  cases e with
  | done a t => exact ⟨a, t, rfl⟩
  | resetRequest _ => simp [lookEnd] at h
  | refused _ => simp [lookEnd] at h
  | fault _ => simp [lookEnd] at h

theorem ends_reset {α : Type} {e : RunEnd α} (h : lookEnd (fun _ => ()) e = some (true, ())) : ∃ t, e = .resetRequest t := by
  cases e with
  | done _ _ => simp [lookEnd] at h
  | resetRequest t => exact ⟨t, rfl⟩
  | refused _ => simp [lookEnd] at h
  | fault _ => simp [lookEnd] at h

/-- P3 steps 3 to 9: 'a', ctrl, alt, the prefix, delete, and two words after the reset request. -/
def p3 : List HostInput := [.command 0x101E#16, .command 0x101D#16, .command 0x1038#16, .command 0x10E0#16, .command 0x1053#16, .command 0x101E#16, .command 0x3000#16]

/-! ### What the well-formedness checks refuse (30_encoding R85, R86; 00_scope R5; 41_scan_decoder R150) -/

theorem test_wf_refuses_rsv : ({ opc := 0x1#4, rsv := 0x1#4, arg := 0x1E#8 } : CF).rsvOk = false ∧ ({ opc := 0x1#4, rsv := 0x8#4, arg := 0x1E#8 } : CF).wf = false := by decide
theorem test_wf_refuses_opcode : ({ opc := 0x0#4, rsv := 0x0#4, arg := 0x00#8 } : CF).opcOk = false ∧ ({ opc := 0x6#4, rsv := 0x0#4, arg := 0x00#8 } : CF).wf = false := by decide
theorem test_wf_refuses_pop_operand : ({ opc := 0x3#4, rsv := 0x0#4, arg := 0x01#8 } : CF).popOk = false ∧ ({ opc := 0x3#4, rsv := 0x0#4, arg := 0x80#8 } : CF).wf = false := by decide
theorem test_wf_accepts_the_reference_parameters : refConfig.wf = true ∧ refConfig.picOk = true := by decide +kernel
theorem test_wf_refuses_cap : { refConfig with cap := 0 }.capOk = false := by decide
theorem test_wf_refuses_short_table : { refConfig with kmapCtl := [0x00#8] }.tablesOk = false := by decide +kernel
theorem test_wf_refuses_escape_as_held : { refConfig with shiftCode := [0x40#7] }.heldOk = false := by decide
theorem test_wf_refuses_shift_as_toggle : { refConfig with toggleCode := [0x01#7] }.toggleOk = false := by decide
theorem test_wf_refuses_letter_a : { refConfig with kmapNormal := refKmapShift }.letterAOk = false := by decide +kernel
theorem test_wf_refuses_letter_case : { refConfig with kmapShift := refKmapNormal }.letterCaseOk = false := by decide +kernel
theorem test_wf_refuses_no_shift_key : { refConfig with shiftCode := refToggleCode }.shiftKeyOk = false := by decide +kernel
theorem test_wf_refuses_no_keypad : { refConfig with kmapNormal := refKmapCtl }.keypadOk = false := by decide +kernel
theorem test_wf_refuses_no_delete : { refConfig with keyDel := 0x00#8 }.resetComboOk = false ∧ { refConfig with kmapCtl := [] }.resetComboOk = false := by decide +kernel
theorem test_wf_refuses_irq_lines : { refConfig with irqKbd := 2#8 }.irqLinesOk = false ∧ { refConfig with irqSer := 16#8 }.irqLinesOk = false := by decide
theorem test_wf_refuses_cascade_masked : { refConfig with imaskReset := 0xFFFF#16 }.imaskResetOk = false := by decide
theorem test_wf_refuses_shared_port : { refConfig with resetPort := 0x0021#16 }.portsDistinct = false := by decide
theorem test_wf_refuses_single_controller : { refConfig with icw1 := 0x13#8 }.bytesOk = false ∧ { refConfig with ocw3a := 0x78#8 }.bytesOk = false := by decide

/-! ### Words written out from the encoding (30_encoding R80, R84; 95_test_vectors section 5) -/

theorem test_decode_kbdIn : decode 0b0001000000011110#16 = .command (.kbdIn 0b00011110#8) := by decide
theorem test_decode_serIn : decode 0b0010000011111111#16 = .command (.serIn 0b11111111#8) := by decide
theorem test_decode_pop : decode 0b0011000000000000#16 = .command .pop := by decide
theorem test_decode_irqEnable : decode 0b0100000000001111#16 = .command (.irqEnable 0b00001111#8) := by decide
theorem test_decode_picInit : decode 0b0101000000100000#16 = .command (.picInit 0b00100000#8) := by decide
theorem test_decode_reserved_opcodes : decode 0x0000#16 = .reserved (.opcode 0x0#4) ∧ decode 0x6000#16 = .reserved (.opcode 0x6#4) ∧ decode 0xF000#16 = .reserved (.opcode 0xF#4) := by decide
theorem test_decode_reserved_rsv : decode 0x1100#16 = .reserved (.rsvField 0x1#4) ∧ decode 0x2800#16 = .reserved (.rsvField 0x8#4) ∧ decode 0x7FFF#16 = .reserved (.rsvField 0xF#4) := by decide
theorem test_decode_reserved_pop : decode 0x3001#16 = .reserved (.popOperand 0x01#8) ∧ decode 0x30FF#16 = .reserved (.popOperand 0xFF#8) ∧ decode 0x3100#16 = .reserved (.rsvField 0x1#4) := by decide
theorem test_decodeTableWord : decodeTableWord 16 0x5020 = some (.picInit 0x20#8) ∧ decodeTableWord 16 0x5A20 = none := by decide

/-! ### The assembler (30_encoding R90: its examples, a comment, the range of a number) -/

theorem test_assemble_examples : assembleLine "KBD_IN 0x1E".toList = .command (.kbdIn 0x1E#8) ∧ assembleLine "SER_IN 'q'".toList = .command (.serIn 0x71#8) ∧ assembleLine "POP".toList = .command .pop ∧ assembleLine "IRQ_ENABLE 1 ; timer".toList = .command (.irqEnable 1#8) ∧ assembleLine "PIC_INIT 0x20".toList = .command (.picInit 0x20#8) := by decide +kernel
theorem test_assemble_errors : assembleLine "KBD_IN 256".toList = .error ∧ assembleLine "KBD_IN 'a'".toList = .error ∧ assembleLine "POP 1".toList = .error ∧ assembleLine "; only a comment".toList = .blank := by decide +kernel

/-! ### One step per command (95_test_vectors) -/

/-- K-vectors: the modifier state and code, and the modifier state, character and reset request the spec gives. -/
def kRow (m : ModBits) (code : Byte) (m' : ModBits) (c : Byte) (r : Bool) : Bool := kdec refConfig code m == { mod := m', char := c, rst := r }

/-- K2, K5, K10, K11, K14, K17, K20, K25, K27. -/
theorem test_kdec_prefix_and_breaks : kRow 0x00#7 0x9E#8 0x00#7 0x00#8 false && kRow 0x01#7 0xAA#8 0x00#7 0x00#8 false && kRow 0x40#7 0xE0#8 0x40#7 0x00#8 false && kRow 0x40#7 0x1C#8 0x00#7 0x0A#8 false && kRow 0x40#7 0x4F#8 0x00#7 0xE1#8 false && kRow 0x40#7 0xC8#8 0x00#7 0x00#8 false && kRow 0x03#7 0x1E#8 0x03#7 0x01#8 false && kRow 0x02#7 0x9D#8 0x00#7 0x00#8 false && kRow 0x42#7 0x9D#8 0x00#7 0x00#8 false = true := by decide +kernel

/-- K34, K36, K38, K39, K43, K44, K46, K47, K50, K51, K53, K66, K67. -/
theorem test_kdec_toggles_and_reset : kRow 0x08#7 0xBA#8 0x08#7 0x00#8 false && kRow 0x09#7 0x1E#8 0x09#7 0x61#8 false && kRow 0x08#7 0x3A#8 0x00#7 0x00#8 false && kRow 0x0A#7 0x1E#8 0x0A#7 0x01#8 false && kRow 0x06#7 0x53#8 0x06#7 0x00#8 false && kRow 0x46#7 0x53#8 0x06#7 0xE9#8 true && kRow 0x44#7 0x53#8 0x04#7 0xE9#8 false && kRow 0x42#7 0x53#8 0x02#7 0xE9#8 false && kRow 0x4E#7 0x53#8 0x0E#7 0xE9#8 true && kRow 0x42#7 0x47#8 0x02#7 0x00#8 false && kRow 0x42#7 0x17#8 0x02#7 0xE0#8 false && kRow 0x7F#7 0x1E#8 0x3F#7 0x00#8 false && kRow 0x7F#7 0x9E#8 0x3F#7 0x00#8 false = true := by decide +kernel

/-- W2 step 2. -/
theorem test_kbdIn_pushes_shifted_letter : look (fun t => (t.mod, ringView t)) (exec (.kbdIn 0x1E#8) (keyed 0x01#7)) = some (0x01#7, 0x0141#16, 1, 0, [0x41#8]) := by decide +kernel
/-- P3 step 7. -/
theorem test_kbdIn_reset_request : look (fun t => (t.mod, t.halt, t.out, t.resp, queue t)) (exec (.kbdIn 0x53#8) (keyed 0x46#7)) = some (0x06#7, true, [⟨0x0092#16, 0x03#8⟩], 0x0000#16, []) := by decide +kernel
/-- F2 step 8, the fold. -/
theorem test_serIn_folds : look ringView (exec (.serIn 0x18#8) (ringAt 4 7 0 [(0, 0x15#8), (1, 0x16#8), (2, 0x17#8), (3, 0x14#8)])) = some (0x0118#16, 4, 0, [0x15#8, 0x16#8, 0x17#8, 0x18#8]) := by decide +kernel
/-- F4 step 1, the zero filter. -/
theorem test_serIn_zero : look ringView (exec (.serIn 0x00#8) (ringAt 4 0 0 [])) = some (0x0000#16, 0, 0, []) := by decide +kernel
/-- F1 step 9, the skip. -/
theorem test_pop_skips : look ringView (exec .pop (ringAt 4 7 1 [(0, 0x55#8), (1, 0x66#8), (2, 0x77#8), (3, 0x44#8)])) = some (0x0144#16, 7, 4, [0x55#8, 0x66#8, 0x77#8]) := by decide +kernel
/-- F1 step 13, the empty ring. -/
theorem test_pop_empty : look ringView (exec .pop (ringAt 4 7 7 [(3, 0x44#8)])) = some (0x0000#16, 7, 7, []) := by decide +kernel
/-- M14. -/
theorem test_irqEnable_slave_line : look (fun t => (t.imask, t.out, t.resp)) (exec (.irqEnable 15#8) (masked 0xFFFB#16 true)) = some (0x7FFB#16, [⟨0x0021#16, 0xFB#8⟩, ⟨0x00A1#16, 0x7F#8⟩], 0x0000#16) := by decide +kernel
/-- M15. -/
theorem test_irqEnable_out_of_range : look (fun t => (t.imask, t.out, t.resp)) (exec (.irqEnable 16#8) (masked 0xFFFB#16 true)) = some (0xFFFB#16, [], 0x0000#16) := by decide +kernel
/-- P1 step 7 (row 8 wraps, M20). -/
theorem test_picInit_sixteen_writes : look (fun t => (t.init, t.imask, t.out)) (exec (.picInit 0xF8#8) (masked 0x7FE9#16 true)) = some (true, 0x7FE9#16, [⟨0x21#16, 0xFF#8⟩, ⟨0xA1#16, 0xFF#8⟩, ⟨0x20#16, 0x11#8⟩, ⟨0x21#16, 0xF8#8⟩, ⟨0x21#16, 0x04#8⟩, ⟨0x21#16, 0x03#8⟩, ⟨0xA0#16, 0x11#8⟩, ⟨0xA1#16, 0x00#8⟩, ⟨0xA1#16, 0x02#8⟩, ⟨0xA1#16, 0x03#8⟩, ⟨0x20#16, 0x68#8⟩, ⟨0x20#16, 0x0A#8⟩, ⟨0xA0#16, 0x68#8⟩, ⟨0xA0#16, 0x0A#8⟩, ⟨0x21#16, 0xE9#8⟩, ⟨0xA1#16, 0x7F#8⟩]) := by decide +kernel

/-- P6: the word 0x0000 is refused. -/
theorem test_step_refuses_reserved_word : refusalOf (step (State.given .reset [.command 0x0000#16])) = some (.reserved 0x0000#16 (.opcode 0x0#4)) := by decide +kernel
/-- P3 steps 8 and 9, R203: any word while halted, a reserved one too. -/
theorem test_step_refuses_when_halted : refusalOf (step (State.given halted [.command 0x3000#16])) = some (.halted 0x3000#16) ∧ refusalOf (step (State.given halted [.command 0x0000#16])) = some (.halted 0x0000#16) := by decide +kernel
/-- R200: the outcome numbers. -/
theorem test_outcome_numbers : (outcomeCode 0x3000#16 .reset).map OutcomeCode.number = some 0 ∧ (outcomeCode 0x1053#16 (keyed 0x46#7)).map OutcomeCode.number = some 1 ∧ (outcomeCode 0xFFFF#16 .reset).map OutcomeCode.number = some 2 ∧ (outcomeCode 0xFFFF#16 halted).map OutcomeCode.number = some 3 := by decide +kernel
/-- The word given to the fetch is the one the next step runs. -/
theorem test_withFetchWord : look (fun t => (t.resp, t.port)) (step (State.withFetchWord .reset 16 0x20FF)) = some (0x01FF#16, []) := by decide +kernel
/-- P1: the controller view after the boot program. -/
theorem test_controllers_after_boot : lookEnd (fun t => ((t.pic .master).imr, (t.pic .slave).imr)) (issue [.irqEnable 1#8, .irqEnable 4#8, .picInit 0x20#8, .irqEnable 15#8] .reset) = some (false, 0xE9#8, 0x7F#8) := by decide +kernel
/-- R206: the vectors of lines 1 and 15 for base 0x20, and of line 8 for base 0xF8. -/
theorem test_vectors : vectorOf 0x20#8 1 = 0x21#8 ∧ vectorOf 0x20#8 15 = 0x2F#8 ∧ vectorOf 0xF8#8 8 = 0x00#8 := by decide
/-- R211: the handler contract, with a byte waiting at each device. -/
theorem test_onInterrupt : commandsOf (onInterrupt refConfig 1#8 true [(true, 0x41#8)] [(0x01#8, 0x1E#8)]) = [.kbdIn 0x1E#8] ∧ commandsOf (onInterrupt refConfig 4#8 true [(true, 0x41#8)] [(0x01#8, 0x1E#8)]) = [.serIn 0x41#8] ∧ onInterrupt refConfig 5#8 true [(true, 0x41#8)] [] = [] := by decide +kernel
/-- P3: the run of the stream ends at the reset request of step 7, with 'a' in the ring, and steps 8 and 9 have no part in it. -/
theorem test_runStream_ends_at_reset_request : lookEnd (fun t => (t.halt, t.mod, t.resp, queue t)) (runStream 9 (State.given .reset p3)) = some (true, true, 0x06#7, 0x0000#16, [0x61#8]) := by decide +kernel
/-- R177 and W1: the byte the keyboard controller holds, and 0 when no byte is left. -/
theorem test_getCharRun : answerOf (getCharRun true [] [(0x01#8, 0x1E#8), (0x01#8, 0x9E#8)] .reset) = some 0x61#8 ∧ answerOf (getCharRun true [] [] .reset) = some 0x00#8 := by decide +kernel

/-! ### A concrete state and operands for the premises of each obligation, and for each clause at its boundary -/

theorem witness_DecodeOfEncodeIsTheCommand : (Instr.kbdIn 0x00#8).wf = true ∧ (Instr.serIn 0xFF#8).wf = true ∧ Instr.pop.wf = true ∧ (Instr.irqEnable 0xFF#8).wf = true ∧ (Instr.picInit 0xFF#8).wf = true := by decide
theorem witness_EncodeOfDecodeIsTheWord : decode 0x50FF#16 = .command (.picInit 0xFF#8) := by decide
/-- Each way of being reserved, and the first and last word that is not. -/
theorem witness_ReservedWordsAreExactlyThese : decode 0x0FFF#16 = .reserved (.rsvField 0xF#4) ∧ decode 0x00FF#16 = .reserved (.opcode 0x0#4) ∧ decode 0x1000#16 = .command (.kbdIn 0x00#8) ∧ decode 0x50FF#16 = .command (.picInit 0xFF#8) ∧ decode 0x6000#16 = .reserved (.opcode 0x6#4) ∧ decode 0x3001#16 = .reserved (.popOperand 0x01#8) := by decide

theorem witness_StepRunsTheDecodedCommand : (State.given .reset [.command 0x101E#16]).port = [.command 0x101E#16] ∧ (State.given .reset [.command 0x101E#16]).halt = false ∧ decode 0x101E#16 = .command (.kbdIn 0x1E#8) := by decide
theorem witness_RefusalsAndTheirPrecedence : (State.given halted [.command 0x0000#16]).port = [.command 0x0000#16] ∧ (State.given halted [.command 0x0000#16]).halt = true ∧ (State.given .reset [.command 0x0000#16]).port = [.command 0x0000#16] ∧ (State.given .reset [.command 0x0000#16]).halt = false ∧ decode 0x0000#16 = .reserved (.opcode 0x0#4) := by decide
theorem witness_StepsNeverFaultAndRefuseOnlyWords : 0 < (State.given halted [.command 0x3000#16]).cfg.cap ∧ step (State.given halted [.command 0x3000#16]) = .refused (.halted 0x3000#16) ∧ step (State.given .reset [.command 0x6000#16]) = .refused (.reserved 0x6000#16 (.opcode 0x6#4)) := ⟨by decide, rfl, rfl⟩
/-- The smallest legal capacity. -/
theorem witness_EveryCommandCompletes : 0 < (ringAt 1 1 0 [(0, 0x22#8)]).cfg.cap := by decide
/-- All three at once, and both producers without a `POP`. -/
theorem witness_SameCycleOrderIsPopSerialKeyboard : (State.given .reset [.together true (some 0x41#8) (some 0x1E#8)]).port = [.together true (some 0x41#8) (some 0x1E#8)] ∧ (State.given .reset [.together false (some 0x41#8) (some 0x1E#8)]).port = [.together false (some 0x41#8) (some 0x1E#8)] := by decide
theorem witness_PresentedCommandsRunInOrder : ∃ rs t, (State.given .reset ([.serIn 0x41#8, .pop].map present)).port = [.serIn 0x41#8, .pop].map present ∧ (State.given .reset ([.serIn 0x41#8, .pop].map present)).halt = false ∧ issue [.serIn 0x41#8, .pop] State.reset = .done rs t := by
  obtain ⟨rs, t, h⟩ : ∃ rs t, issue [.serIn 0x41#8, .pop] State.reset = .done rs t := ends_done (by decide +kernel)
  exact ⟨rs, t, rfl, rfl, h⟩
theorem witness_PresentedCommandsRunInOrder_reset : ∃ t, issue [.serIn 0x41#8, .kbdIn 0x53#8, .pop] (keyed 0x46#7) = .resetRequest t := ends_reset (by decide +kernel)
theorem witness_BlockWaitsForAnInput : State.reset.port = [] ∧ halted.port = [] := by decide
theorem witness_ResetInputResetsTheBlockAndKeepsTheControllers : (State.given halted [.reset]).port = [.reset] := by decide
theorem witness_PowerCycleResetsTheBlockAndDrawsTheControllers : (State.given halted [.powerOn]).port = [.powerOn] := by decide
theorem witness_HaltIsLeftOnlyByReset : (∃ t, (State.given halted [.reset]).halt = true ∧ step (State.given halted [.reset]) = .next t ∧ t.halt = false) ∧ (∃ t, step (State.given halted [.powerOn]) = .next t ∧ t.halt = false) := ⟨⟨_, rfl, rfl, rfl⟩, ⟨_, rfl, rfl⟩⟩
theorem witness_HaltIsEnteredOnlyByTheResetRequest : ∃ t, (State.given (keyed 0x46#7) [.command 0x1053#16]).halt = false ∧ step (State.given (keyed 0x46#7) [.command 0x1053#16]) = .next t ∧ t.halt = true := ⟨_, rfl, rfl, by decide +kernel⟩

theorem witness_RunsEndAtTheResetRequest : (State.given (keyed 0x46#7) [.command 0x1053#16, .command 0x3000#16]).port = [.command 0x1053#16, .command 0x3000#16] ∧ (State.given (keyed 0x46#7) [.command 0x1053#16, .command 0x3000#16]).halt = false ∧ decode 0x1053#16 = .command (.kbdIn 0x53#8) ∧ (kdec (keyed 0x46#7).cfg 0x53#8 (keyed 0x46#7).mod).rst = true ∧ ∃ t, runStream 5 (State.given .reset p3) = .resetRequest t := ⟨by decide, rfl, by decide, by decide +kernel, ends_reset (by decide +kernel)⟩

/-- The first and last break codes beside 0xE0, the first and last make codes, with and without an escape. -/
theorem witness_DecoderFunctionAsGathered : (0x80#8 ≠ 0xE0#8 ∧ (0x80#8).getLsbD 7 = true) ∧ (0xFF#8 ≠ 0xE0#8 ∧ (0xFF#8).getLsbD 7 = true) ∧ (0x00#8).getLsbD 7 = false ∧ (0x7F#8).getLsbD 7 = false ∧ (0x00#7 &&& 0x40#7 = 0#7) ∧ (0x7F#7 &&& 0x40#7 ≠ 0#7) := by decide
theorem witness_BreakCodesOnlyClearHeldBits : 0xE1#8 ≠ 0xE0#8 ∧ (0xE1#8).getLsbD 7 = true ∧ 0xDF#8 ≠ 0xE0#8 ∧ (0xDF#8).getLsbD 7 = true ∧ refConfig.heldOk = true := by decide +kernel
theorem witness_EscapeLastsOneByte : refConfig.heldOk = true ∧ refConfig.toggleOk = true := by decide +kernel
theorem witness_OnlyShiftCtlCapsAndEscapeChangeTheCharacter : (0x00#7 ^^^ 0x34#7) &&& (SHIFT ||| CTL ||| CAPSLOCK ||| E0ESC) = 0#7 := by decide
/-- R142, R164: the reset combination fires, and one modifier short of it does not. -/
theorem witness_ResetComboWithTheReferenceTables : (kdec refConfig 0x53#8 0x46#7).rst = true ∧ (kdec refConfig 0x53#8 0x42#7).rst = false := by decide +kernel
/-- One state and code for each of the three ends of `KBD_IN`. -/
theorem witness_KbdInDecodesPushesOrRequestsReset : 0 < (keyed 0x46#7).cfg.cap ∧ (kdec (keyed 0x46#7).cfg 0x53#8 (keyed 0x46#7).mod).rst = true ∧ ((kdec State.reset.cfg 0x9E#8 State.reset.mod).rst = false ∧ (kdec State.reset.cfg 0x9E#8 State.reset.mod).char = 0x00#8) ∧ ((kdec State.reset.cfg 0x1E#8 State.reset.mod).rst = false ∧ (kdec State.reset.cfg 0x1E#8 State.reset.mod).char ≠ 0x00#8) := by decide +kernel
theorem witness_KbdInFrame : (∃ t, exec (.kbdIn 0x1E#8) .reset = .next t) ∧ (∃ t, exec (.kbdIn 0x9E#8) .reset = .next t) ∧ (∃ t, exec (.kbdIn 0x53#8) (keyed 0x46#7) = .next t) ∧ (0 ≠ slot State.reset 1) := ⟨⟨_, rfl⟩, ⟨_, rfl⟩, ⟨_, rfl⟩, by decide⟩

/-- Both clauses; the second without the fold, just below it and at it. -/
theorem witness_SerInPushesTheByte : 0 < (ringAt 4 7 0 []).cfg.cap ∧ (0x00#8 : Byte) = 0x00#8 ∧ (0x01#8 : Byte) ≠ 0x00#8 ∧ fill (ringAt 4 0 0 []) = 0 ∧ fill (ringAt 4 6 0 []) = 6 ∧ fill (ringAt 4 7 0 []) = 7 := by decide
theorem witness_SerInFrame : (∃ t, exec (.serIn 0x01#8) (ringAt 4 7 0 []) = .next t) ∧ (∃ t, exec (.serIn 0x00#8) (ringAt 4 7 0 []) = .next t) ∧ 2 ≠ slot (ringAt 4 7 0 []) 7 := ⟨⟨_, rfl⟩, ⟨_, rfl⟩, by decide⟩
/-- Empty, one byte, full, and one byte over. -/
theorem witness_PopTakesTheOldestByte : 0 < (ringAt 4 7 7 []).cfg.cap ∧ fill (ringAt 4 7 7 []) = 0 ∧ fill (ringAt 4 0 7 []) = 1 ∧ fill (ringAt 4 7 3 []) = 4 ∧ overrun (ringAt 4 7 3 []) = false ∧ fill (ringAt 4 7 2 []) = 5 ∧ overrun (ringAt 4 7 2 []) = true := by decide
theorem witness_PopFrame : (∃ t, exec .pop (ringAt 4 7 2 []) = .next t) ∧ (∃ t, exec .pop (ringAt 4 7 7 []) = .next t) ∧ queue (ringAt 4 7 7 []) = [] := ⟨⟨_, rfl⟩, ⟨_, rfl⟩, by decide⟩
theorem witness_EachPointerHasOneWriter : (∃ t, ringPush 0x11#8 (ringAt 4 7 0 []) = .ok t) ∧ (∃ t, ringPop (ringAt 4 7 7 []) = .ok (none, t)) ∧ (∃ t, ringPop (ringAt 4 7 3 [(3, 0x44#8)]) = .ok (some 0x44#8, t)) := ⟨⟨_, rfl⟩, ⟨_, rfl⟩, ⟨_, rfl⟩⟩
/-- A full ring, one short of full, and an empty one. -/
theorem witness_RingPrimitivesRefineABoundedQueue : RingInv (ringAt 4 5 1 [(0, 0x55#8), (1, 0x22#8), (2, 0x33#8), (3, 0x44#8)]) ∧ queue (ringAt 4 5 1 [(0, 0x55#8), (1, 0x22#8), (2, 0x33#8), (3, 0x44#8)]) = [0x22#8, 0x33#8, 0x44#8, 0x55#8] ∧ RingInv (ringAt 4 4 1 [(1, 0x22#8), (2, 0x33#8), (3, 0x44#8)]) ∧ (queue (ringAt 4 4 1 [(1, 0x22#8), (2, 0x33#8), (3, 0x44#8)])).length = 3 ∧ RingInv (ringAt 4 7 7 []) ∧ queue (ringAt 4 7 7 []) = [] := by decide
theorem witness_MachineRefinesTheAbstractConsole : RingInv (ringAt 1 1 0 [(0, 0x22#8)]) ∧ (ringAt 1 1 0 [(0, 0x22#8)]).halt = false := by decide
/-- W4 with a character of the keyboard among the bytes, a zero byte and a mask command between them, at the last push that fits. -/
theorem witness_FifoOrderWithoutOverflow : RingInv (ringAt 4 0 0 []) ∧ (ringAt 4 0 0 []).halt = false ∧ queue (ringAt 4 0 0 []) = [] ∧ neverOverflows (ringAt 4 0 0 []).cfg (ringAt 4 0 0 []).mod 0 [.serIn 0x11#8, .kbdIn 0x1E#8, .kbdIn 0x9E#8, .serIn 0x00#8, .irqEnable 1#8, .serIn 0x33#8, .serIn 0x44#8, .pop, .serIn 0x55#8, .pop, .pop] = true ∧ neverOverflows (ringAt 1 0 0 []).cfg 0x00#7 0 [.serIn 0x11#8, .kbdIn 0x1E#8] = false := by decide +kernel
/-- W5 with a character of the keyboard among the five. -/
theorem witness_OverwriteKeepsTheMostRecentBytes : RingInv (ringAt 4 0 0 []) ∧ (ringAt 4 0 0 []).halt = false ∧ queue (ringAt 4 0 0 []) = [] ∧ Instr.pop ∉ [Instr.serIn 0x01#8, .serIn 0x02#8, .kbdIn 0x1E#8, .serIn 0x04#8, .serIn 0x05#8] ∧ noResetRequest (ringAt 4 0 0 []).cfg (ringAt 4 0 0 []).mod [.serIn 0x01#8, .serIn 0x02#8, .kbdIn 0x1E#8, .serIn 0x04#8, .serIn 0x05#8] = true ∧ pushedBytes (ringAt 4 0 0 []).cfg (ringAt 4 0 0 []).mod [.serIn 0x01#8, .serIn 0x02#8, .kbdIn 0x1E#8, .serIn 0x04#8, .serIn 0x05#8] = [0x01#8, 0x02#8, 0x61#8, 0x04#8, 0x05#8] := by decide +kernel
/-- The oldest and the newest readable slot. -/
theorem witness_ReadableSlotsWereWritten : RingInv (ringAt 4 7 2 [(0, 0x55#8), (1, 0x66#8), (2, 0x77#8), (3, 0x44#8)]) ∧ 0 < count (ringAt 4 7 2 [(0, 0x55#8), (1, 0x66#8), (2, 0x77#8), (3, 0x44#8)]) ∧ 3 < count (ringAt 4 7 2 [(0, 0x55#8), (1, 0x66#8), (2, 0x77#8), (3, 0x44#8)]) := by decide

/-- The first and last line, and the first and last number beyond. -/
theorem witness_IrqEnableClearsOneBit_and_OutOfRange : (0#8).toNat < 16 ∧ (15#8).toNat < 16 ∧ 16 ≤ (16#8).toNat ∧ 16 ≤ (255#8).toNat := by decide
theorem witness_MaskCommandsFrame : (∃ t, exec (.irqEnable 7#8) (masked 0xFFFB#16 false) = .next t) ∧ (∃ t, exec (.irqEnable 255#8) (masked 0xFFFB#16 true) = .next t) ∧ (∃ t, exec (.picInit 0x20#8) (masked 0xFFFB#16 true) = .next t) ∧ (6 : Nat) ≠ (7#8).toNat ∧ (masked 0xFFFB#16 false).init = false := ⟨⟨_, rfl⟩, ⟨_, rfl⟩, ⟨_, rfl⟩, by decide, rfl⟩
/-- Each field does change at the command that owns it. -/
theorem witness_OnlyTheOwningCommandsWriteAField : (∃ t, exec (.kbdIn 0x2A#8) .reset = .next t ∧ t.mod ≠ State.reset.mod) ∧ (∃ t, exec (.serIn 0x41#8) .reset = .next t ∧ t.wptr ≠ State.reset.wptr) ∧ (∃ t, exec .pop (ringAt 4 1 0 [(0, 0x41#8)]) = .next t ∧ t.rptr ≠ 0) ∧ (∃ t, exec (.irqEnable 1#8) .reset = .next t ∧ t.imask ≠ State.reset.imask) ∧ (∃ t, exec (.picInit 0x20#8) .reset = .next t ∧ t.init ≠ State.reset.init) := ⟨⟨_, rfl, by decide +kernel⟩, ⟨_, rfl, by decide +kernel⟩, ⟨_, rfl, by decide +kernel⟩, ⟨_, rfl, by decide⟩, ⟨_, rfl, by decide⟩⟩
theorem witness_EmittedWritesOnlyGrow : (∃ t, exec (.kbdIn 0x53#8) (keyed 0x46#7) = .next t ∧ t.out.length = 1) ∧ (∃ t, exec (.irqEnable 1#8) (masked 0xFFFB#16 true) = .next t ∧ t.out.length = 2) ∧ (∃ t, exec (.picInit 0x20#8) .reset = .next t ∧ t.out.length = 16) ∧ (∃ t, exec .pop .reset = .next t ∧ t.out.length = 0) := ⟨⟨_, rfl, by decide +kernel⟩, ⟨_, rfl, by decide +kernel⟩, ⟨_, rfl, by decide +kernel⟩, ⟨_, rfl, by decide +kernel⟩⟩
theorem witness_MaskBitsAreOnlyCleared : ∃ t, exec (.irqEnable 15#8) .reset = .next t := ⟨_, rfl⟩
theorem witness_MaskIsResetValueWithoutTheAcceptedLines : (0#8).toNat < 16 ∧ (15#8).toNat < 16 ∧ State.reset.imask = State.reset.cfg.imaskReset ∧ (∃ rs t, issue [.irqEnable 1#8, .irqEnable 16#8, .irqEnable 15#8] State.reset = .done rs t) ∧ [Instr.irqEnable 1#8, .irqEnable 15#8].Perm [.irqEnable 15#8, .irqEnable 1#8] := ⟨by decide, by decide, rfl, ends_done (by decide +kernel), by decide⟩
/-- W6, with the last line of each controller. -/
theorem witness_DeferredEnablesApplyAtPicInit : State.reset.cfg.picOk = true ∧ State.reset.halt = false ∧ State.reset.init = false ∧ State.reset.out = [] ∧ State.reset.imask = State.reset.cfg.imaskReset ∧ ∀ irq ∈ [1#8, 7#8, 15#8], irq.toNat < 16 := by decide +kernel

theorem witness_PicInitProgramsBothControllers : State.reset.cfg.picOk = true ∧ ∃ t, exec (.picInit 0xFF#8) .reset = .next t := ⟨by decide +kernel, _, rfl⟩
theorem programmed_agrees : ControllersAgree programmed := by
  intro _ u
  cases u <;> exact ⟨rfl, rfl⟩
/-- A step that writes the controllers, from a state in which they agree. -/
theorem witness_StepsKeepTheControllersInAgreement : (State.given programmed [.command 0x400F#16]).cfg.picOk = true ∧ ControllersAgree (State.given programmed [.command 0x400F#16]) ∧ (State.given programmed [.command 0x400F#16]).init = true ∧ ∃ t, step (State.given programmed [.command 0x400F#16]) = .next t := ⟨by decide +kernel, programmed_agrees, rfl, _, rfl⟩
/-- The first and last line of each controller. -/
theorem witness_UnmaskedLinesReachTheProcessor : ControllersAgree programmed ∧ programmed.init = true ∧ CascadeOpen programmed ∧ 0 < 16 ∧ 7 < 16 ∧ 8 < 16 ∧ 15 < 16 := ⟨programmed_agrees, rfl, by decide, by decide⟩
/-- A sequence that runs to its end and one that the reset request ends, at the first and last line of each controller. -/
theorem witness_VectorsFollowTheBase : State.reset.cfg.picOk = true ∧ 0 < 16 ∧ 7 < 16 ∧ 8 < 16 ∧ 15 < 16 ∧ (∀ b, Instr.picInit b ∉ [Instr.irqEnable 15#8, .kbdIn 0x53#8]) ∧ (∃ rs t, issue (.picInit 0xF8#8 :: [Instr.irqEnable 15#8, .kbdIn 0x53#8]) .reset = .done rs t) ∧ ∃ t, issue (.picInit 0xF8#8 :: [Instr.irqEnable 15#8, .kbdIn 0x53#8]) (keyed 0x46#7) = .resetRequest t := ⟨by decide +kernel, by decide, by decide, by decide, by decide, by simp, ends_done (by decide +kernel), ends_reset (by decide +kernel)⟩
/-- A step that writes the controllers, and the reset input. -/
theorem witness_OnlyPicInitChangesAVectorBase : (State.given programmed [.command 0x400F#16]).cfg.picOk = true ∧ (∀ u, ((State.given programmed [.command 0x400F#16]).pic u).phase = .ready) ∧ (∃ t, step (State.given programmed [.command 0x400F#16]) = .next t) ∧ decode 0x400F#16 ≠ .command (.picInit 0x0F#8) ∧ ∃ t, step (State.given programmed [.reset]) = .next t := ⟨by decide +kernel, fun u => (programmed_agrees rfl u).1, ⟨_, rfl⟩, by decide, _, rfl⟩

theorem witness_TablesAreReadOnly : ∃ t, step (State.given .reset [.command 0x101E#16]) = .next t := ⟨_, rfl⟩
theorem witness_StepsKeepTheInvariant : Inv (State.given .reset [.command 0x20FF#16]) ∧ ∃ t, step (State.given .reset [.command 0x20FF#16]) = .next t := ⟨by decide +kernel, _, rfl⟩
theorem witness_BootArmsTheKeyboardAndSerialLines : State.reset.cfg.wf = true ∧ (State.given .reset (inputsOf (bootSequence refConfig true [] 0x20#8))).port = inputsOf (bootSequence refConfig true [] 0x20#8) ∧ inputsOf (bootSequence refConfig true [] 0x20#8) = [.reset, .command 0x4001#16, .command 0x4004#16, .command 0x5020#16] ∧ inputsOf (bootSequence refConfig false [] 0x20#8) = [.reset, .command 0x4001#16, .command 0x5020#16] := by decide +kernel

/-- Drains that run to their end and drains that the reset request ends. -/
theorem witness_GetCharReturnsTheOldestByte : RingInv (keyed 0x46#7) ∧ (keyed 0x46#7).halt = false ∧ noResetRequest (keyed 0x46#7).cfg (keyed 0x46#7).mod (commandsOf (drainSer true [(true, 0x41#8)] ++ drainKbd (keyed 0x46#7).cfg [(0x01#8, 0x1E#8)])) = true ∧ noResetRequest (keyed 0x46#7).cfg (keyed 0x46#7).mod (commandsOf (drainSer false [] ++ drainKbd (keyed 0x46#7).cfg [(0x01#8, 0x53#8)])) = false := by decide +kernel

end Sys2Proof.Tests
end

section
/-! PROOFS. The byte sequence `Q` of R34 after each primitive of the ring (spec 10_state R31 to R34; 42_input_fifo R171, R172, R175). -/

namespace Sys2Proof.Machine

/-! ### Ring positions: integers taken modulo `2*CAP` as pointers, modulo `CAP` as slots -/

/-- A pointer is its value modulo `2*CAP`. -/
theorem wrap_coe {s : State} (x : Int) (hc : 0 < s.cfg.cap) : (wrap s x : Int) = x % (2 * s.cfg.cap) :=
  Int.toNat_of_nonneg (Int.emod_nonneg x (by omega))

/-- A pointer differs from the value it was reduced from by a multiple of `2*CAP`. -/
theorem dvd_wrap_sub {s : State} (x : Int) (hc : 0 < s.cfg.cap) : 2 * (s.cfg.cap : Int) ∣ wrap s x - x := by
  rw [wrap_coe x hc]
  exact Int.ModEq.dvd (Int.mod_modEq x _).symm

/-- Values that differ by a multiple of `2*CAP` are one pointer. -/
theorem wrap_congr {s : State} {x y : Int} (h : 2 * (s.cfg.cap : Int) ∣ x - y) : wrap s x = wrap s y := by
  rw [wrap, wrap, (Int.modEq_iff_dvd.mpr h : y ≡ x [ZMOD 2 * s.cfg.cap])]

/-- A pointer already reduced may stand for its value in a further sum. -/
theorem wrap_wrap_add {s : State} (x y : Int) (hc : 0 < s.cfg.cap) : wrap s (wrap s x + y) = wrap s (x + y) :=
  wrap_congr (by simpa using dvd_wrap_sub x hc)

/-- A pointer already reduced may stand for its value in a further difference. -/
theorem wrap_sub_wrap {s : State} (x y : Int) (hc : 0 < s.cfg.cap) : wrap s (x - wrap s y) = wrap s (x - y) :=
  wrap_congr (by simpa using (dvd_sub_comm).mp (dvd_wrap_sub y hc))

/-- The slot of a position is the position modulo `CAP`. -/
theorem slot_wrap {s : State} (x : Int) (hc : 0 < s.cfg.cap) : (slot s (wrap s x) : Int) = x % s.cfg.cap := by
  rw [slot, Int.natCast_mod, wrap_coe x hc, Int.emod_emod_of_dvd _ (Dvd.intro_left 2 rfl)]

/-- Two positions share a slot exactly when they differ by a multiple of `CAP`. -/
theorem slot_wrap_eq_iff {s : State} {x y : Int} (hc : 0 < s.cfg.cap) :
    slot s (wrap s x) = slot s (wrap s y) ↔ (s.cfg.cap : Int) ∣ x - y := by
  rw [← Int.natCast_inj, slot_wrap x hc, slot_wrap y hc, ← Int.emod_eq_emod_iff_emod_sub_eq_zero.trans Int.dvd_iff_emod_eq_zero.symm]

/-- The slot of a pointer, as the slot of a position. -/
theorem slot_wrap_natCast {s : State} (p : Nat) (hc : 0 < s.cfg.cap) : slot s (wrap s p) = slot s p := by
  rw [← Int.natCast_inj, slot_wrap p hc, slot, Int.natCast_mod]

/-! ### The byte sequence -/

/-- The slot of the `j`-th byte a consumer can read, oldest first (R34). -/
def readSlot (s : State) (j : Nat) : Nat := slot s (wrap s ((s.wptr : Int) - count s + j))

@[simp] theorem length_queue (s : State) : (queue s).length = count s := by simp [queue]

theorem getElem_queue {s : State} {j : Nat} (h : j < (queue s).length) :
    (queue s)[j] = Memory.read s.buf (readSlot s j) := by
  simp [queue, readSlot]

theorem count_le_cap (s : State) : count s ≤ s.cfg.cap := Nat.min_le_right _ _

theorem queue_eq_nil_iff {s : State} (hc : 0 < s.cfg.cap) : queue s = [] ↔ fill s = 0 := by
  rw [← List.length_eq_zero_iff, length_queue, count]
  omega

/-- No readable slot but that of the oldest byte of a full ring is the slot of `WPTR`. -/
theorem readSlot_ne_slot_wptr {s : State} {j : Nat} (hc : 0 < s.cfg.cap) (hj : j < count s)
    (h : count s = s.cfg.cap → j ≠ 0) : readSlot s j ≠ slot s s.wptr := by
  have hcap := count_le_cap s
  rw [readSlot, ← slot_wrap_natCast s.wptr hc, Ne, slot_wrap_eq_iff hc]
  intro hdvd
  have := Int.le_of_dvd (by omega) ((dvd_neg).mpr hdvd)
  omega

/-! ### A push -/

/-- R171: a push moves `WPTR` one position on, and `CAP` more where `FILL` folds. -/
theorem pushedPtr_eq (s : State) :
    pushedPtr s = wrap s (s.wptr + (1 + if fill s + 1 = 2 * s.cfg.cap then (s.cfg.cap : Int) else 0)) := by
  rw [pushedPtr]
  split
  · rw [add_assoc]
  · rw [add_zero]

/-- Folded or not, the new `WPTR` addresses the next slot. -/
theorem slot_pushedPtr_add {s : State} (y : Int) (hc : 0 < s.cfg.cap) :
    slot s (wrap s (pushedPtr s + y)) = slot s (wrap s (s.wptr + 1 + y)) := by
  rw [pushedPtr_eq, wrap_wrap_add _ _ hc, slot_wrap_eq_iff hc]
  split
  · exact Dvd.intro 1 (by omega)
  · exact Dvd.intro 0 (by omega)

/-- R171: a push adds one to `FILL`, which folds to `CAP` before it reaches `2*CAP`. -/
theorem fill_pushed (b : Byte) {s : State} (hc : 0 < s.cfg.cap) :
    fill (pushed b s) = if fill s + 1 = 2 * s.cfg.cap then s.cfg.cap else fill s + 1 := by
  have hlt := fill_lt hc
  have hfill : fill (pushed b s) =
      wrap s (fill s + (1 + if fill s + 1 = 2 * s.cfg.cap then (s.cfg.cap : Int) else 0)) := by
    change wrap s (pushedPtr s - s.rptr) = _
    rw [pushedPtr_eq, sub_eq_add_neg, wrap_wrap_add _ _ hc, show fill s = wrap s (s.wptr - s.rptr) from rfl,
      wrap_wrap_add _ _ hc]
    congr 1
    omega
  rw [hfill]
  split
  · rw [wrap_of_ge (by omega) (by omega)]; omega
  · rw [wrap_of_lt (by omega) (by omega)]; omega

/-- R183: a push adds one readable byte, up to `CAP`. -/
theorem count_pushed (b : Byte) {s : State} (hc : 0 < s.cfg.cap) :
    count (pushed b s) = if count s = s.cfg.cap then s.cfg.cap else count s + 1 := by
  have hlt := fill_lt hc
  change min (fill (pushed b s)) s.cfg.cap = if min (fill s) s.cfg.cap = s.cfg.cap then _ else min (fill s) s.cfg.cap + 1
  rw [fill_pushed b hc]
  split <;> split <;> omega

/-- R183: after a push the readable slots are those that stay readable and then the slot of `WPTR`; a full ring loses its oldest. -/
theorem readSlot_pushed (b : Byte) {s : State} (hc : 0 < s.cfg.cap) (j : Nat) :
    readSlot (pushed b s) j = readSlot s (if count s = s.cfg.cap then j + 1 else j) := by
  change slot s (wrap s (pushedPtr s - count (pushed b s) + j)) = _
  rw [count_pushed b hc, sub_add_eq_add_sub, add_sub_assoc, slot_pushedPtr_add _ hc, readSlot]
  split
  · congr 2; omega
  · congr 2; omega

/-- The position after the readable ones is that of `WPTR`. -/
theorem readSlot_count {s : State} (hc : 0 < s.cfg.cap) : readSlot s (count s) = slot s s.wptr := by
  rw [readSlot, sub_add_cancel, slot_wrap_natCast _ hc]

/-- R183: a push acts on `Q` as a push on a queue of at most `CAP` bytes. -/
theorem queue_pushed (b : Byte) {s : State} (hc : 0 < s.cfg.cap) (hm : Memory.wf s.buf = true) :
    queue (pushed b s) = boundedPush s.cfg.cap b (queue s) := by
  have hold (j : Nat) (hj : j < count s) (hf : count s = s.cfg.cap → j ≠ 0) :
      Memory.read (pushed b s).buf (readSlot s j) = Memory.read s.buf (readSlot s j) :=
    Memory.read_write_other (readSlot_ne_slot_wptr hc hj hf)
  have hnew : Memory.read (pushed b s).buf (readSlot s (count s)) = b := by
    rw [readSlot_count hc]; exact Memory.read_write_same hm
  unfold boundedPush
  simp only [length_queue]
  split
  · rename_i hfull
    refine List.ext_getElem (by simp [count_pushed b hc, hfull]; omega) fun j hj _ => ?_
    rw [getElem_queue, readSlot_pushed b hc, if_pos hfull]
    rw [length_queue, count_pushed b hc, if_pos hfull] at hj
    by_cases hlast : j + 1 = count s
    · rw [hlast, hnew, List.getElem_append_right (by simp; omega)]; simp
    · rw [hold (j + 1) (by omega) (by omega), List.getElem_append_left (by simp; omega), List.getElem_tail, getElem_queue]
  · rename_i hroom
    refine List.ext_getElem (by simp [count_pushed b hc, hroom]) fun j hj _ => ?_
    rw [getElem_queue, readSlot_pushed b hc, if_neg hroom]
    rw [length_queue, count_pushed b hc, if_neg hroom] at hj
    obtain rfl | hlast := eq_or_ne j (count s)
    · rw [hnew, List.getElem_append_right (by simp)]; simp
    · rw [hold j (by omega) (by omega), List.getElem_append_left (by simp; omega), getElem_queue]

/-! ### A pop -/

/-- The state after a pop from a ring that holds a byte. -/
abbrev popped (s : State) : State := { s with rptr := wrap s ((oldestPtr s : Int) + 1) }

/-- R172: the pop starts at the oldest readable byte. -/
theorem oldestPtr_eq {s : State} (hc : 0 < s.cfg.cap) (hr : s.rptr < 2 * s.cfg.cap) :
    oldestPtr s = wrap s (s.wptr - count s) := by
  unfold oldestPtr overrun
  split
  · rename_i hover
    have hcount : count s = s.cfg.cap := Nat.min_eq_right (of_decide_eq_true hover).le
    exact wrap_congr (Dvd.intro 1 (by omega))
  · rename_i hover
    have hcount : count s = fill s := Nat.min_eq_left (by simpa using hover)
    rw [hcount, fill, wrap_sub_wrap _ _ hc, sub_sub_cancel, wrap_of_lt (by omega) (by omega), Int.toNat_natCast]

theorem slot_oldestPtr {s : State} (hc : 0 < s.cfg.cap) (hr : s.rptr < 2 * s.cfg.cap) : slot s (oldestPtr s) = readSlot s 0 := by
  rw [oldestPtr_eq hc hr, readSlot, Nat.cast_zero, add_zero]

/-- R172: a pop leaves one byte less to read, whatever it skips. -/
theorem fill_popped {s : State} (hc : 0 < s.cfg.cap) (hr : s.rptr < 2 * s.cfg.cap) (hf : fill s ≠ 0) :
    fill (popped s) = count s - 1 := by
  have hcount : 0 < count s := by rw [count]; omega
  have hcap := count_le_cap s
  change wrap s (s.wptr - wrap s (oldestPtr s + 1)) = _
  rw [wrap_sub_wrap _ _ hc, oldestPtr_eq hc hr, ← sub_sub, sub_right_comm, wrap_sub_wrap _ _ hc, wrap_of_lt (by omega) (by omega)]
  omega

/-- R183: a pop from a ring that holds a byte takes the head of `Q`. -/
theorem queue_eq_cons_popped {s : State} (hc : 0 < s.cfg.cap) (hr : s.rptr < 2 * s.cfg.cap) (hf : fill s ≠ 0) :
    queue s = Memory.read s.buf (slot s (oldestPtr s)) :: queue (popped s) := by
  have hcount : 0 < count s := by rw [count]; omega
  have hcap := count_le_cap s
  have hpopped : count (popped s) = count s - 1 := by
    rw [count, fill_popped hc hr hf]
    exact Nat.min_eq_left (by change _ ≤ s.cfg.cap; omega)
  refine List.ext_getElem (by simp [hpopped]; omega) fun j hj _ => ?_
  rw [getElem_queue]
  cases j with
  | zero => rw [List.getElem_cons_zero, slot_oldestPtr hc hr]
  | succ j =>
    rw [List.getElem_cons_succ, getElem_queue]
    have hslot : readSlot (popped s) j = readSlot s (j + 1) := by
      change slot s (wrap s (s.wptr - count (popped s) + j)) = _
      rw [hpopped, readSlot]
      congr 2
      omega
    rw [hslot]

/-! ### The ring's invariant (R33) -/

/-- The ring's invariant speaks of the parameters, the storage and the two pointers only. -/
theorem ringInv_congr {s t : State} (h : RingInv s) (hc : t.cfg = s.cfg) (hb : t.buf = s.buf) (hw : t.wptr = s.wptr)
    (hr : t.rptr = s.rptr) : RingInv t := by
  simpa [RingInv, PointersInRange, StorageOk, QueueNonzero, queue_congr hc hb hw hr, hc, hb, hw, hr] using h

/-- A push of a byte other than 0 keeps the ring's invariant. -/
theorem ringInv_pushed {b : Byte} {s : State} (h : RingInv s) (hb : b ≠ 0#8) : RingInv (pushed b s) := by
  obtain ⟨hc, ⟨hw, hr⟩, ⟨hm, hslots⟩, hq⟩ := h
  refine ⟨hc, ⟨?_, hr⟩, ⟨Memory.write_wf _ _ hm, ?_⟩, ?_⟩
  · change pushedPtr s < _
    rw [pushedPtr_eq]
    exact wrap_lt _ hc
  · intro c hcell
    rcases Memory.mem_write hcell with hold | ⟨rfl, -⟩
    · exact hslots c hold
    · exact slot_lt _ hc
  · intro x hx
    rw [queue_pushed b hc hm, boundedPush] at hx
    have hmem : x ∈ queue s ∨ x = b := by
      split at hx
      · exact (List.mem_append.mp hx).imp List.mem_of_mem_tail List.mem_singleton.mp
      · exact (List.mem_append.mp hx).imp_right List.mem_singleton.mp
    rcases hmem with hold | rfl
    · exact hq x hold
    · exact hb

/-- A pop from a ring that holds a byte keeps the ring's invariant. -/
theorem ringInv_popped {s : State} (h : RingInv s) (hf : fill s ≠ 0) : RingInv (popped s) := by
  obtain ⟨hc, ⟨hw, hr⟩, hm, hq⟩ := h
  refine ⟨hc, ⟨hw, wrap_lt (oldestPtr s + 1) hc⟩, hm, fun x hx => hq x ?_⟩
  rw [queue_eq_cons_popped hc hr hf]
  exact List.mem_cons_of_mem _ hx

/-- The byte a pop takes is not 0 (R33 (c)). -/
theorem RingInv.read_oldest_ne {s : State} (h : RingInv s) (hf : fill s ≠ 0) :
    Memory.read s.buf (slot s (oldestPtr s)) ≠ 0#8 := by
  obtain ⟨hc, ⟨-, hr⟩, -, hq⟩ := h
  exact hq _ (by rw [queue_eq_cons_popped hc hr hf]; exact List.mem_cons_self)

end Sys2Proof.Machine
end

section
/-! PROOFS. The command port and what one command changes: frames of every command, the response word, and the decoder's escape bit (spec 10_state R22 to R41; 30_encoding R87, R88; 41_scan_decoder R131 to R137). -/

namespace Sys2Proof.Machine

/-! ### The command port -/

/-- R87: the word of a command decodes to it. -/
theorem decode_encode (i : Instr) : decode (encode i) = .command i := by
  unfold decode
  rw [encode, Laws.WordFields.ofWord_toWord]
  cases i <;> rfl

/-- R203: a word that decodes to a command runs it while `HALT` is 0. -/
theorem runWord_command {w : Word} {i : Instr} {s : State} (hh : s.halt = false) (hd : decode w = .command i) :
    runWord w s = exec i s := by
  simp [runWord, hh, hd]

/-- R200: every command answers a next state, with a legal capacity. -/
theorem exec_total (i : Instr) {s : State} (hc : 0 < s.cfg.cap) : ∃ t, exec i s = .next t := by
  cases i with
  | kbdIn code =>
    cases hr : (kdec s.cfg code s.mod).rst with
    | true => exact ⟨_, execKbdIn_rst hr⟩
    | false => exact ⟨_, (execKbdIn_no_rst hr).trans (produce_eq _ hc)⟩
  | serIn b => exact ⟨_, produce_eq b hc⟩
  | pop =>
    by_cases hf : fill s = 0
    · exact ⟨_, execPop_empty hf⟩
    · exact ⟨_, execPop_some hc hf⟩
  | irqEnable irq =>
    cases hi : irqInRange irq with
    | true => exact ⟨_, execIrqEnable_inRange hi⟩
    | false => exact ⟨_, execIrqEnable_outOfRange hi⟩
  | picInit base => exact ⟨_, rfl⟩

/-! ### Which fields a command can change -/

section Frame

variable {i : Instr} {s t : State}

/-- R29: no command changes the parameters, nor anything outside the block's own fields. -/
theorem ExecEffect.unowned_eq (h : ExecEffect s i t) : t.cfg = s.cfg ∧ t.port = s.port ∧ t.past = s.past ∧ t.draw = s.draw := by
  cases h <;> exact ⟨rfl, rfl, rfl, rfl⟩

theorem ExecEffect.cfg_eq (h : ExecEffect s i t) : t.cfg = s.cfg := h.unowned_eq.1

/-- R22: only `KBD_IN` writes `MOD` and `HALT`. -/
theorem ExecEffect.kbdIn_or_mod_halt_eq (h : ExecEffect s i t) : (∃ code, i = .kbdIn code) ∨ (t.mod = s.mod ∧ t.halt = s.halt) := by
  cases h <;> simp

/-- R22, R32: only the two producers write `BUF` and `WPTR`. -/
theorem ExecEffect.producer_or_buf_wptr_eq (h : ExecEffect s i t) :
    ((∃ code, i = .kbdIn code) ∨ ∃ b, i = .serIn b) ∨ (t.buf = s.buf ∧ t.wptr = s.wptr) := by
  cases h <;> simp

/-- R22, R32: only `POP` writes `RPTR`. -/
theorem ExecEffect.pop_or_rptr_eq (h : ExecEffect s i t) : i = .pop ∨ t.rptr = s.rptr := by
  cases h <;> simp

/-- R22: only `PIC_INIT` writes `INIT`. -/
theorem ExecEffect.picInit_or_init_eq (h : ExecEffect s i t) : (∃ base, i = .picInit base) ∨ t.init = s.init := by
  cases h <;> simp

/-- R35, R101: the mask stays, but for the line that an accepted `IRQ_ENABLE` clears. -/
theorem ExecEffect.imask_cases (h : ExecEffect s i t) :
    t.imask = s.imask ∨ ∃ irq, i = .irqEnable irq ∧ irq.toNat < 16 ∧ t.imask = maskCleared s.imask irq := by
  cases h with
  | irqCleared irq hi => exact .inr ⟨irq, rfl, irqInRange_iff irq |>.mp hi, rfl⟩
  | _ => exact .inl rfl

/-- R28, R145: a command leaves `HALT` alone or is a `KBD_IN` that raises the reset request. -/
theorem ExecEffect.halt_cases (h : ExecEffect s i t) :
    t.halt = s.halt ∨
      ∃ code, i = .kbdIn code ∧ (kdec s.cfg code s.mod).rst = true ∧ t = Machine.resetRequest (kdec s.cfg code s.mod).mod s := by
  cases h with
  | resetRequest code d hd hr => subst hd; exact .inr ⟨code, rfl, hr, rfl⟩
  | _ => exact .inl rfl

/-- R35: a command sets no bit of the mask. -/
theorem ExecEffect.imask_getLsbD_of_clear (h : ExecEffect s i t) {n : Nat} (hn : s.imask.getLsbD n = false) :
    t.imask.getLsbD n = false := by
  obtain heq | ⟨irq, -, hirq, heq⟩ := h.imask_cases
  · rw [heq, hn]
  · rw [heq, maskCleared_getLsbD hirq, hn, Bool.false_and]

end Frame

/-! ### The response (R88, R89) -/

/-- R88: the two fields of a response word, and its zero bits. -/
theorem response_fields (valid : Bool) (data : Byte) :
    (response valid data).extractLsb' 9 7 = 0#7 ∧ (response valid data).getLsbD 8 = valid ∧
      (response valid data).extractLsb' 0 8 = data := by
  have hhigh : (data.setWidth 16).extractLsb' 9 7 = 0#7 := by
    ext k hk
    simp [BitVec.getLsbD_of_ge data (9 + k) (by omega)]
  refine ⟨?_, ?_, ?_⟩
  · rw [response, BitVec.extractLsb'_or, hhigh]
    cases valid <;> rfl
  · cases valid <;> simp [response]
  · rw [response, BitVec.extractLsb'_or, ← BitVec.setWidth_eq_extractLsb' (x := data.setWidth 16) (by decide),
      BitVec.setWidth_setWidth_of_le _ (by decide), BitVec.setWidth_eq]
    cases valid <;> exact BitVec.zero_or

/-- R88, R89: a response whose `VALID` says that `DATA` is not 0 has the form of R88. -/
theorem responseOk_of_valid_iff {valid : Bool} {data : Byte} {s : State} (hs : s.resp = response valid data)
    (h : valid = true ↔ data ≠ 0#8) : ResponseOk s := by
  obtain ⟨hhigh, hvalid, hdata⟩ := response_fields valid data
  rw [ResponseOk, hs, hhigh, hvalid, hdata]
  exact ⟨rfl, h⟩

/-- R88: the response 0x0000 has the form of R88. -/
theorem responseOk_of_zero {s : State} (hs : s.resp = 0#16) : ResponseOk s :=
  responseOk_of_valid_iff (valid := false) (data := 0#8) hs (by decide)

/-- R89: so has a producer's response. -/
theorem responseOk_of_producer {b : Byte} {s : State} (hs : s.resp = producerResponse b) : ResponseOk s :=
  responseOk_of_valid_iff hs bne_iff_ne

/-! ### The escape bit of the decoder (R26) -/

/-- What every entry of a table and the byte 0 meet, every lookup meets. -/
theorem entry_of_all {n : Nat} {t : List (BitVec n)} {p : BitVec n → Bool} (i : Byte) (h : t.all p = true) (h0 : p 0 = true) :
    p (Config.entry t i) = true := by
  rw [Config.entry, List.getD_eq_getElem?_getD]
  cases hi : t[i.toNat]? with
  | none => exact h0
  | some e => exact List.all_eq_true.mp h e (List.mem_of_getElem? hi)

/-- A value that avoids a set of bits avoids each of its subsets. -/
theorem and_eq_zero_of_subset {n : Nat} {x big small : BitVec n} (h : x &&& big = 0#n) (hsub : big &&& small = small) :
    x &&& small = 0#n := by
  rw [← hsub, ← BitVec.and_assoc, h, BitVec.zero_and]

/-- R150 point 2: no held modifier is the escape bit. -/
theorem shiftCode_entry_and_e0esc {c : Config} (h : c.heldOk = true) (i : Byte) : Config.entry c.shiftCode i &&& E0ESC = 0#7 :=
  and_eq_zero_of_subset (beq_iff_eq.mp (entry_of_all i h (by decide))) (by decide)

/-- R150 point 2: no toggle is the escape bit. -/
theorem toggleCode_entry_and_e0esc {c : Config} (h : c.toggleOk = true) (i : Byte) : Config.entry c.toggleCode i &&& E0ESC = 0#7 :=
  and_eq_zero_of_subset (beq_iff_eq.mp (entry_of_all i h (by decide))) (by decide)

/-- R133: the escape code sets the escape bit. -/
theorem modAfterEscape_and_e0esc (m : ModBits) : modAfterEscape m &&& E0ESC = E0ESC := by
  ext k hk
  simpa [modAfterEscape] using Or.inr

/-- R134: a break code clears the escape bit. -/
theorem modAfterBreak_and_e0esc (held m : ModBits) : modAfterBreak held m &&& E0ESC = 0#7 := by
  ext k hk
  simp [modAfterBreak]

/-- R135: a make code clears the escape bit, if its table entries do not hold it. -/
theorem modAfterMake_and_e0esc {held toggle : ModBits} (m : ModBits) (hh : held &&& E0ESC = 0#7) (ht : toggle &&& E0ESC = 0#7) :
    modAfterMake held toggle m &&& E0ESC = 0#7 := by
  have hclear (x : ModBits) : x &&& ~~~E0ESC &&& E0ESC = 0#7 := by rw [BitVec.and_assoc]; exact BitVec.and_zero
  have hxor (x y : ModBits) : (x ^^^ y) &&& E0ESC = (x &&& E0ESC) ^^^ (y &&& E0ESC) :=
    BitVec.eq_of_getElem_eq (by simp [Bool.and_xor_distrib_right])
  rw [modAfterMake, hxor, ht, BitVec.xor_zero, BitVec.and_or_distrib_right, hh, BitVec.or_zero, hclear]

end Sys2Proof.Machine
end

section
/-! PROOFS. What every command keeps of the invariants, and what the abstract console sees of it (spec 10_state R33, R34, R37; 42_input_fifo R183). -/

namespace Sys2Proof.Machine

section Effect

variable {i : Instr} {s t : State}

/-- R33: a command keeps the ring's invariant. -/
theorem ExecEffect.ringInv (h : ExecEffect s i t) (hs : RingInv s) : RingInv t := by
  cases h with
  | character code d hd hr hb => exact ringInv_congr (ringInv_pushed hs hb) rfl rfl rfl rfl
  | serialByte b hb => exact ringInv_congr (ringInv_pushed hs hb) rfl rfl rfl rfl
  | popByte hf => exact ringInv_congr (ringInv_popped hs hf) rfl rfl rfl rfl
  | _ => exact ringInv_congr hs rfl rfl rfl rfl

/-- R88: a command leaves a response of the form R88; on the reset request it leaves the response alone (R145). -/
theorem ExecEffect.responseOk (h : ExecEffect s i t) (hs : RingInv s) (hr : ResponseOk s) : ResponseOk t := by
  cases h with
  | resetRequest => exact hr
  | noCharacter => exact responseOk_of_producer rfl
  | character => exact responseOk_of_producer rfl
  | serialZero => exact responseOk_of_producer rfl
  | serialByte => exact responseOk_of_producer rfl
  | popByte hf => exact responseOk_of_valid_iff rfl (iff_of_true rfl (hs.read_oldest_ne hf))
  | popEmpty => exact responseOk_of_zero rfl
  | irqCleared => exact responseOk_of_zero rfl
  | irqRejected => exact responseOk_of_zero rfl
  | programmed => exact responseOk_of_zero rfl

/-- A command keeps the machine's invariant. -/
theorem ExecEffect.inv (h : ExecEffect s i t) (hs : Inv s) : Inv t := by
  obtain ⟨hwf, hring, hcascade, hresp⟩ := hs
  exact ⟨h.cfg_eq ▸ hwf, h.ringInv hring, h.imask_getLsbD_of_clear hcascade, h.responseOk hring hresp⟩

end Effect

/-- R42: what a reset leaves meets the machine's invariant, for legal parameters. -/
theorem inv_resetWith {c : Config} (hc : c.wf = true) (port : List HostInput) (past : List IOW) (draw : Nat) :
    Inv (State.resetWith c port past draw) := by
  have hparts := hc
  simp only [Config.wf, Bool.and_eq_true] at hparts
  obtain ⟨⟨⟨⟨⟨⟨⟨⟨⟨⟨hcap, -⟩, -⟩, -⟩, -⟩, -⟩, -⟩, -⟩, -⟩, -⟩, hmask⟩ := hparts
  have hpos : 0 < c.cap := of_decide_eq_true hcap
  have hempty : queue (State.resetWith c port past draw) = [] := by
    rw [queue_eq_nil_iff hpos, fill_eq] <;> simp [hpos]
  refine ⟨hc, ⟨hpos, ⟨?_, ?_⟩, ⟨rfl, ?_⟩, ?_⟩, ?_, responseOk_of_zero rfl⟩
  · simpa using hpos
  · simpa using hpos
  · simp
  · simp [QueueNonzero, hempty]
  · exact (Bool.not_eq_true' _).mp hmask

/-! ### The abstract console (R34, R183) -/

/-- R175: a producer pushes no 0. -/
theorem boundedUnit_zero (cap : Nat) (q : List Byte) : boundedUnit cap 0#8 q = q := if_pos rfl

/-- R175: a producer's push acts on `Q` as the console's. -/
theorem queue_pushed_of_ne {b : Byte} {s : State} (h : RingInv s) (hb : b ≠ 0#8) :
    queue (pushed b s) = boundedUnit s.cfg.cap b (queue s) := by
  obtain ⟨hc, -, ⟨hm, -⟩, -⟩ := h
  rw [queue_pushed b hc hm, boundedUnit, if_neg hb]

section ConsoleStep

variable {c : Config} {code : Byte} {k : Console}

theorem Console.step_kbdIn_rst (h : (kdec c code k.mod).rst = true) :
    Console.step c (.kbdIn code) k = (none, { k with mod := (kdec c code k.mod).mod }) := by
  simp [Console.step, h]

theorem Console.step_kbdIn_no_rst (h : (kdec c code k.mod).rst = false) :
    Console.step c (.kbdIn code) k = (some (producerResponse (kdec c code k.mod).char),
      { mod := (kdec c code k.mod).mod, q := boundedUnit c.cap (kdec c code k.mod).char k.q }) := by
  simp [Console.step, h]

theorem Console.step_pop_nil (h : k.q = []) : Console.step c .pop k = (some 0x0000#16, k) := by
  simp [Console.step, h]

theorem Console.step_pop_cons {b : Byte} {q : List Byte} (h : k.q = b :: q) :
    Console.step c .pop k = (some (response true b), { k with q := q }) := by
  simp [Console.step, h, response]

theorem Console.issue_cons_none {i : Instr} {k' : Console} (is : List Instr) (h : Console.step c i k = (none, k')) :
    Console.issue c (i :: is) k = (none, k') := by
  simp [Console.issue, h]

theorem Console.issue_cons_some {i : Instr} {r : Word} {k' : Console} (is : List Instr) (h : Console.step c i k = (some r, k')) :
    Console.issue c (i :: is) k = ((Console.issue c is k').1.map fun rs => r :: rs, (Console.issue c is k').2) := by
  simp [Console.issue, h]

end ConsoleStep

/-- What the abstract console sees of the state that one command leaves: no response on the reset request (R145). -/
def State.seen (t : State) : Option Word × Console := (if t.halt then none else some t.resp, t.console)

theorem State.seen_of_halt {t : State} (h : t.halt = true) : t.seen = (none, t.console) := by
  rw [State.seen, if_pos h]

theorem State.seen_of_running {t : State} (h : t.halt = false) : t.seen = (some t.resp, t.console) := by
  rw [State.seen, if_neg (by simp [h])]

/-- An answer of the abstract console is the one seen of a state with the same response, modifier state and byte sequence. -/
theorem answer_eq_seen {t : State} {r : Word} {k : Console} (hh : t.halt = false) (hr : r = t.resp) (hm : k.mod = t.mod)
    (hq : k.q = queue t) : (some r, k) = t.seen := by
  rw [State.seen_of_running hh, State.console, hr, ← hm, ← hq]

/-- R34, R89: the response and the console after a command are those of the console's own step. -/
theorem ExecEffect.console_step {i : Instr} {s t : State} (h : ExecEffect s i t) (hs : RingInv s) (hh : s.halt = false) :
    Console.step s.cfg i s.console = t.seen := by
  cases h with
  | resetRequest code d hd hr =>
    subst hd
    rw [Console.step_kbdIn_rst (k := s.console) hr, State.seen_of_halt (resetRequest_halt _ _)]
    rfl
  | noCharacter code d hd hr hb =>
    subst hd
    have hchar : (kdec s.cfg code s.console.mod).char = 0#8 := hb
    rw [Console.step_kbdIn_no_rst (k := s.console) hr, hchar, boundedUnit_zero]
    exact answer_eq_seen hh rfl rfl (queue_congr rfl rfl rfl rfl)
  | character code d hd hr hb =>
    subst hd
    rw [Console.step_kbdIn_no_rst (k := s.console) hr]
    exact answer_eq_seen hh rfl rfl (queue_pushed_of_ne hs hb).symm
  | serialZero => exact answer_eq_seen hh rfl rfl (boundedUnit_zero s.cfg.cap _)
  | serialByte b hb => exact answer_eq_seen hh rfl rfl (queue_pushed_of_ne hs hb).symm
  | popEmpty hf =>
    rw [Console.step_pop_nil (k := s.console) ((queue_eq_nil_iff hs.1).mpr hf)]
    exact answer_eq_seen hh rfl rfl rfl
  | popByte hf =>
    obtain ⟨hc, ⟨-, hr⟩, -⟩ := hs
    rw [Console.step_pop_cons (k := s.console) (queue_eq_cons_popped hc hr hf)]
    exact answer_eq_seen hh rfl rfl rfl
  | irqCleared => exact answer_eq_seen hh rfl rfl rfl
  | irqRejected => exact answer_eq_seen hh rfl rfl rfl
  | programmed => exact answer_eq_seen hh rfl rfl rfl

/-- The end of a run that began with an answered command, as the abstract console sees it. -/
theorem RunEnd.seen_mapAnswer_cons (r : Word) (e : RunEnd (List Word)) :
    (e.mapAnswer fun rs => r :: rs).seen = e.seen.map fun x => (x.1.map fun rs => r :: rs, x.2) := by
  cases e <;> rfl

/-- R34, R183: a sequence of commands refines the abstract console. -/
theorem issue_seen (cs : List Instr) {s : State} (hs : RingInv s) (hh : s.halt = false) :
    (issue cs s).seen = some (Console.issue s.cfg cs s.console) := by
  induction cs generalizing s with
  | nil => rfl
  | cons i is ih =>
    obtain ⟨t, ht⟩ := exec_total i hs.1
    have heffect := exec_effect ht
    have hrun : runWord (encode i) s = .next t := (runWord_command hh (decode_encode i)).trans ht
    have hstep := heffect.console_step hs hh
    cases hhalt : t.halt with
    | true =>
      rw [State.seen_of_halt hhalt] at hstep
      rw [issue_cons_reset hrun hhalt, Console.issue_cons_none is hstep, RunEnd.seen]
    | false =>
      rw [State.seen_of_running hhalt] at hstep
      rw [issue_cons_next hrun hhalt, Console.issue_cons_some is hstep, RunEnd.seen_mapAnswer_cons,
        ih (heffect.ringInv hs) hhalt, heffect.cfg_eq, Option.map_some]

end Sys2Proof.Machine
end

section
/-! PROOFS. The statements of the state family (spec 10_state). -/

namespace Sys2Proof.Machine

/-! ### Refinement and invariants -/

/-- Settles O34, by induction on the commands with one simulation step per command. -/
theorem machineRefinesTheAbstractConsole : Obligations.MachineRefinesTheAbstractConsole :=
  fun cs _ hring hhalt => issue_seen cs hring hhalt

/-- Settles O53: a command keeps the invariant, arbitration changes the stream only, and both resets establish it. -/
theorem stepsKeepTheInvariant : Obligations.StepsKeepTheInvariant := by
  intro s t hinv hstep
  obtain ⟨-, rfl⟩ | ⟨x, rest, -, ⟨w, i, -, -, -, hexec⟩ | ⟨p, b, k, -, rfl⟩ | ⟨-, rfl⟩ | ⟨-, rfl⟩⟩ := step_cases hstep
  · exact hinv
  · exact (exec_effect hexec).inv hinv
  · exact hinv
  · exact inv_resetWith hinv.1 _ _ _
  · exact inv_resetWith hinv.1 _ _ _

/-- Settles O54: the reference parameters are legal by computation, and the controllers have not been programmed. -/
theorem resetMeetsTheInvariant : Obligations.ResetMeetsTheInvariant := by
  have hwf : refConfig.wf = true := by decide +kernel
  have hpic : refConfig.picOk = true := by decide +kernel
  exact ⟨inv_resetWith hwf [] [] 0, hpic, fun hinit => by cases hinit⟩

/-- Settles O37: a readable byte is not 0, so its slot does not read as an unlisted one. -/
theorem readableSlotsWereWritten : Obligations.ReadableSlotsWereWritten := by
  intro s hring j hj
  obtain ⟨-, -, -, hnonzero⟩ := hring
  have hlen : j < (queue s).length := by rwa [length_queue]
  have hread : Memory.read s.buf (readSlot s j) ≠ unwrittenSlot := by
    rw [← getElem_queue hlen]
    exact hnonzero _ (List.getElem_mem hlen)
  exact ⟨_, Memory.listed_of_read hread, by rw [List.getElem?_eq_getElem hlen, getElem_queue hlen]; rfl⟩

/-- Settles O52: no command writes the parameters, and both resets keep them. -/
theorem tablesAreReadOnly : Obligations.TablesAreReadOnly := by
  intro s t hstep
  obtain ⟨-, rfl⟩ | ⟨x, rest, -, ⟨w, i, -, -, -, hexec⟩ | ⟨p, b, k, -, rfl⟩ | ⟨-, rfl⟩ | ⟨-, rfl⟩⟩ := step_cases hstep
  · rfl
  · exact (exec_effect hexec).cfg_eq
  · rfl
  · rfl
  · rfl

/-! ### `HALT` (R28) -/

/-- Settles O18: no command runs while `HALT` is 1, and the other steps that keep the block's fields keep `HALT`. -/
theorem haltIsLeftOnlyByReset : Obligations.HaltIsLeftOnlyByReset := by
  intro s t hs hstep ht
  obtain ⟨-, rfl⟩ | ⟨x, rest, hport, ⟨w, i, -, hrun, -⟩ | ⟨p, b, k, -, rfl⟩ | ⟨rfl, -⟩ | ⟨rfl, -⟩⟩ := step_cases hstep
  · simp [hs] at ht
  · simp [hs] at hrun
  · simp [hs] at ht
  · exact ⟨rest, .inl hport⟩
  · exact ⟨rest, .inr hport⟩

/-- Settles O19: of all steps from a running block only a command can set `HALT`, and of the commands only the reset request does. -/
theorem haltIsEnteredOnlyByTheResetRequest : Obligations.HaltIsEnteredOnlyByTheResetRequest := by
  intro s t hs hstep ht
  obtain ⟨-, rfl⟩ | ⟨x, rest, hport, ⟨w, i, rfl, -, hdecode, hexec⟩ | ⟨p, b, k, -, rfl⟩ | ⟨-, rfl⟩ | ⟨-, rfl⟩⟩ := step_cases hstep
  · simp [hs] at ht
  · obtain hkept | ⟨code, rfl, hrst, rfl⟩ := (exec_effect hexec).halt_cases
    · simp [hkept, hs] at ht
    · exact ⟨w, code, rest, hport, hdecode, hrst, rfl⟩
  · simp [hs] at ht
  · simp at ht
  · simp at ht

/-! ### The modifier state (R26) -/

/-- Settles O23, by the three cases of the decoder. -/
theorem escapeLastsOneByte : Obligations.EscapeLastsOneByte := by
  intro c code m hheld htoggle
  unfold kdec
  split
  case isTrue hcode => exact iff_of_true (by rw [kdecEscape, modAfterEscape_and_e0esc]; decide) hcode
  case isFalse hcode =>
    refine iff_of_false (not_not_intro ?_) hcode
    split
    · exact modAfterBreak_and_e0esc _ m
    · exact modAfterMake_and_e0esc m (shiftCode_entry_and_e0esc hheld _) (toggleCode_entry_and_e0esc htoggle _)

/-! ### The fields and their writers (R22, R32) -/

/-- Settles O42, field by field. -/
theorem onlyTheOwningCommandsWriteAField : Obligations.OnlyTheOwningCommandsWriteAField := by
  intro i s t hexec
  have heffect := exec_effect hexec
  obtain ⟨hcfg, hport, hpast, hdraw⟩ := heffect.unowned_eq
  refine ⟨hcfg, hport, hpast, hdraw, fun hne => ?_, fun hne => ?_, fun hne => ?_, fun hne => ?_, fun hne => ?_⟩
  · exact heffect.kbdIn_or_mod_halt_eq.resolve_right fun ⟨hmod, hhalt⟩ => hne.elim (· hmod) (· hhalt)
  · exact heffect.producer_or_buf_wptr_eq.resolve_right fun ⟨hbuf, hwptr⟩ => hne.elim (· hbuf) (· hwptr)
  · exact heffect.pop_or_rptr_eq.resolve_right hne
  · obtain ⟨irq, hi, hirq, -⟩ := heffect.imask_cases.resolve_left hne
    exact ⟨irq, hi, hirq⟩
  · exact heffect.picInit_or_init_eq.resolve_right hne

/-- Settles O44: the mask stays or loses one bit. -/
theorem maskBitsAreOnlyCleared : Obligations.MaskBitsAreOnlyCleared := by
  intro i s t hexec
  ext n hn
  cases hold : s.imask.getLsbD n with
  | true => simp [← BitVec.getLsbD_eq_getElem, hold, hn]
  | false => simp [← BitVec.getLsbD_eq_getElem, (exec_effect hexec).imask_getLsbD_of_clear hold]

/-! ### The command port and the reset state -/

/-- Settles O8: the port takes the word at the head of the stream, and `HALT` and the decoder let the command run. -/
theorem stepRunsTheDecodedCommand : Obligations.StepRunsTheDecodedCommand := by
  intro s w rest i hport hhalt hdecode
  have htake : step s = runWord w { s with port := rest } := by
    simp only [step, takeNext, hport, takeInput]
  exact htake.trans (runWord_command hhalt hdecode)

/-- Settles O15, by computation on the reset state. -/
theorem resetStateIsTheOneOfTheSpec : Obligations.ResetStateIsTheOneOfTheSpec :=
  ⟨rfl, rfl, rfl, rfl, rfl, rfl, rfl, rfl, rfl⟩

end Sys2Proof.Machine
end

section
/-! PROOFS. The command port and the host's stream: a command neither reads nor writes the stream, so presented words run as a sequence of commands does; and the I/O writes of each command (spec 20_memory R64, R65, R70, R71; 70_reset_and_hazards R231). -/

namespace Sys2Proof.Machine

/-! ### Commands and the host's stream -/

/-- R175: a producer's push of a byte other than 0, when `CAP >= 1`. -/
theorem produce_of_ne {b : Byte} {s : State} (hc : 0 < s.cfg.cap) (hb : b ≠ 0#8) :
    produce b s = .next (respond (producerResponse b) (pushed b s)) := by
  rw [produce_eq b hc, if_neg hb]

/-- The converse of `exec_effect`: each of the ten effects is what the command answers. -/
theorem ExecEffect.exec_eq {i : Instr} {s t : State} (h : ExecEffect s i t) : exec i s = .next t := by
  cases h with
  | resetRequest code d hd hr => subst hd; exact execKbdIn_rst hr
  | noCharacter code d hd hr hb => subst hd; exact (execKbdIn_no_rst hr).trans (by rw [hb]; rfl)
  | character code d hd hr hb hs => subst hd; exact (execKbdIn_no_rst hr).trans (produce_of_ne (Nat.zero_lt_of_lt hs) hb)
  | serialZero => rfl
  | serialByte b hb hs => exact produce_of_ne (Nat.zero_lt_of_lt hs) hb
  | popEmpty hf => exact execPop_empty hf
  | popByte hf hs => exact execPop_some (Nat.zero_lt_of_lt hs) hf
  | irqCleared irq hi => exact execIrqEnable_inRange hi
  | irqRejected irq hi => exact execIrqEnable_outOfRange hi
  | programmed base => rfl

/-- R21: a command neither reads nor writes the host's stream. -/
theorem ExecEffect.withPort {i : Instr} {s t : State} (h : ExecEffect s i t) (p : List HostInput) :
    ExecEffect { s with port := p } i { t with port := p } := by
  cases h with
  | resetRequest code d hd hr => exact .resetRequest code d hd hr
  | noCharacter code d hd hr hb => exact .noCharacter code d hd hr hb
  | character code d hd hr hb hs => exact .character code d hd hr hb hs
  | serialZero => exact .serialZero
  | serialByte b hb hs => exact .serialByte b hb hs
  | popEmpty hf => exact .popEmpty hf
  | popByte hf hs => exact .popByte hf hs
  | irqCleared irq hi => exact .irqCleared irq hi
  | irqRejected irq hi => exact .irqRejected irq hi
  | programmed base => exact .programmed base

/-- R70: a presented command that answers a next state does so in one step, which takes its word from the stream. -/
theorem step_presented {i : Instr} {s t : State} (h : runWord (encode i) s = .next t) (rest : List HostInput) :
    step { s with port := present i :: rest } = .next { t with port := rest } := by
  obtain ⟨hhalt, j, hdecode, hexec⟩ := runWord_next h
  obtain rfl : i = j := Decoded.command.inj ((decode_encode i).symm.trans hdecode)
  have hstep := stepRunsTheDecodedCommand { s with port := present i :: rest } (encode i) rest i rfl hhalt (decode_encode i)
  exact hstep.trans ((exec_effect hexec).withPort rest).exec_eq

/-! ### Runs of the host's stream -/

/-- The host's run goes on from a step that answers a next state. -/
theorem core_run_succ {s t : State} (n : Nat) (h : step s = .next t) : core.run (n + 1) s = core.run n t := by
  have hstep : core.step s = .next t := h
  simp only [Host.Core.run, hstep]

/-- A sequence of commands leaves the host's stream alone. -/
theorem issue_done_port {cs : List Instr} {rs : List Word} {s t : State} (h : issue cs s = .done rs t) : t.port = s.port := by
  induction cs generalizing s rs with
  | nil => cases h; rfl
  | cons i is ih =>
    obtain ⟨u, rs', hrun, -, htail, -⟩ := issue_cons_done h
    obtain ⟨-, j, -, hexec⟩ := runWord_next hrun
    obtain ⟨-, hport, -, -⟩ := (exec_effect hexec).unowned_eq
    exact (ih htail).trans hport

/-- R70: a sequence that runs to its end does so when presented, one command a step. -/
theorem core_run_presented {cs : List Instr} {rs : List Word} {s t : State} (h : issue cs s = .done rs t) :
    core.run cs.length { s with port := cs.map present } = .next { t with port := [] } := by
  induction cs generalizing s rs with
  | nil => cases h; rfl
  | cons i is ih =>
    obtain ⟨u, rs', hrun, -, htail, -⟩ := issue_cons_done h
    exact (core_run_succ _ (step_presented hrun _)).trans (ih htail)

/-- R70: and the run of the stream completes, since no command raises the reset request. -/
theorem runStream_presented {cs : List Instr} {rs : List Word} {s t : State} (h : issue cs s = .done rs t) :
    runStream cs.length { s with port := cs.map present } = .done () { t with port := [] } := by
  induction cs generalizing s rs with
  | nil => cases h; rfl
  | cons i is ih =>
    obtain ⟨u, rs', hrun, hhalt, htail, -⟩ := issue_cons_done h
    exact (runStream_next _ (step_presented hrun (is.map present)) (.inr hhalt)).trans (ih htail)

/-- R231: a sequence that ends at the reset request ends there when presented, with the later words left in the stream. -/
theorem runStream_presented_resetRequest {cs : List Instr} {s t : State} (hs : s.halt = false) (h : issue cs s = .resetRequest t) :
    ∃ rest, runStream cs.length { s with port := cs.map present } = .resetRequest { t with port := rest } := by
  induction cs generalizing s with
  | nil => cases h
  | cons i is ih =>
    obtain ⟨u, hrun, ⟨hhalt, rfl⟩ | ⟨hhalt, htail⟩⟩ := issue_cons_resetRequest h
    · exact ⟨_, runStream_reset _ (step_presented hrun _) hs hhalt⟩
    · obtain ⟨rest, hrest⟩ := ih hhalt htail
      exact ⟨rest, (runStream_next _ (step_presented hrun (is.map present)) (.inr hhalt)).trans hrest⟩

/-! ### Commands of one cycle (R71) -/

/-- R71: the arbitration puts the commands of one cycle ahead of the rest of the stream. -/
theorem step_together {s : State} {pop : Bool} {ser kbd : Option Byte} {rest : List HostInput}
    (h : s.port = .together pop ser kbd :: rest) :
    step s = .next { s with port := (serialOrder pop ser kbd).map present ++ rest } := by
  simp only [step, takeNext, h, takeInput]

/-- The words of the commands of one cycle, in their serial order. -/
theorem map_present_serialOrder (pop : Bool) (ser kbd : Option Byte) :
    (serialOrder pop ser kbd).map present =
      (if pop then [present .pop] else []) ++ (ser.map fun b => present (.serIn b)).toList ++
        (kbd.map fun code => present (.kbdIn code)).toList := by
  have hpop : (if pop then [Instr.pop] else []).map present = if pop then [present .pop] else [] := apply_ite _ _ _ _
  simp only [serialOrder, List.map_append, hpop, ← Option.toList_map, Option.map_map, Function.comp_def]

/-! ### The I/O writes of a command (R64) -/

/-- The I/O writes of a command, oldest first: the reset write of R145, the mask's bytes of R101 and the sixteen writes of R105. -/
def emittedWrites (s : State) : Instr → List IOW
  | .kbdIn code => if (kdec s.cfg code s.mod).rst then [⟨s.cfg.resetPort, s.cfg.resetCmd⟩] else []
  | .serIn _ => []
  | .pop => []
  | .irqEnable irq =>
    if irq.toNat < 16 ∧ s.init = true then
      [⟨s.cfg.pic1Data, lowByte (maskCleared s.imask irq)⟩, ⟨s.cfg.pic2Data, highByte (maskCleared s.imask irq)⟩]
    else []
  | .picInit base => picSequence s.cfg base s.imask

/-- R64: a command appends its writes to the end of `OUT`. -/
theorem ExecEffect.out_eq {i : Instr} {s t : State} (h : ExecEffect s i t) : t.out = s.out ++ emittedWrites s i := by
  cases h with
  | resetRequest code d hd hr => subst hd; simp [emittedWrites, hr]
  | noCharacter code d hd hr hb => subst hd; simp [emittedWrites, hr]
  | character code d hd hr hb hs => subst hd; simp [emittedWrites, hr]
  | irqCleared irq hi => simp [emittedWrites, (irqInRange_iff irq).mp hi]
  | irqRejected irq hi => simp [emittedWrites, (irqInRange_eq_false_iff irq).mp hi]
  | programmed base => rfl
  | _ => exact (List.append_nil _).symm

/-! ### The statements -/

/-- Settles O13, by induction on the commands with one step of the stream per command. -/
theorem presentedCommandsRunInOrder : Obligations.PresentedCommandsRunInOrder := by
  intro cs s t hport hhalt
  have hs : s = { ({ s with port := [] } : State) with port := cs.map present } := by rw [← hport]
  refine ⟨fun rs h => ?_, fun h => ?_⟩
  · have hempty : t.port = [] := issue_done_port h
    have ht : t = { t with port := [] } := by rw [← hempty]
    rw [hs, ht]
    exact ⟨core_run_presented h, runStream_presented h⟩
  · rw [hs]
    exact runStream_presented_resetRequest hhalt h

/-- Settles O43: each effect appends the writes of its command, which are as many as stated. -/
theorem emittedWritesOnlyGrow : Obligations.EmittedWritesOnlyGrow := by
  intro i s t hexec
  refine ⟨emittedWrites s i, (exec_effect hexec).out_eq, ?_⟩
  cases i with
  | kbdIn code => exact apply_ite List.length _ _ _
  | irqEnable irq => exact apply_ite List.length _ _ _
  | _ => rfl

/-- Settles O12, by the words of the serial order; the splits only match the two ways to write an optional word. -/
theorem sameCycleOrderIsPopSerialKeyboard : Obligations.SameCycleOrderIsPopSerialKeyboard := by
  intro s pop ser kbd rest hport
  rw [step_together hport, map_present_serialOrder]
  cases ser <;> cases kbd <;> rfl

end Sys2Proof.Machine
end

section
/-! PROOFS. The encoding family (spec 30_encoding R80 to R87): commands and their words correspond one to one, and every other word is reserved. -/

namespace Sys2Proof

/-! ### The word and its fields (R80, R84) -/

/-- R80: a word is the concatenation of its fields. -/
theorem CF.toWord_ofWord (w : Word) : (CF.ofWord w).toWord = w := by
  have hhigh : w.extractLsb' 12 4 ++ w.extractLsb' 8 4 = w.extractLsb' 8 8 := BitVec.extractLsb'_append_extractLsb'_eq_extractLsb' rfl
  have hword : w.extractLsb' 8 8 ++ w.extractLsb' 0 8 = w.extractLsb' 0 16 := BitVec.extractLsb'_append_extractLsb'_eq_extractLsb' rfl
  simp only [CF.toWord, CF.ofWord, hhigh, hword, BitVec.extractLsb'_eq_self]

theorem CF.toWord_inj {f g : CF} : f.toWord = g.toWord ↔ f = g :=
  (Function.LeftInverse.injective Laws.WordFields.ofWord_toWord).eq_iff

/-- R84: the mask of the four commands with an operand clears `ARG`. -/
theorem CF.toWord_and_mask (f : CF) : f.toWord &&& 0xFF00#16 = CF.toWord { f with arg := 0#8 } := by
  have hmask : 0xFF00#16 = BitVec.allOnes 8 ++ 0#8 := rfl
  rw [hmask, toWord, toWord, BitVec.and_append (x₁ := f.opc ++ f.rsv) (x₂ := BitVec.allOnes 8), BitVec.and_allOnes, BitVec.and_zero]

/-- R84: a word has a given opcode and a zero `RSV` exactly by match and mask, and its `ARG` is its low byte. -/
theorem CF.ofWord_eq_iff_match_mask (w : Word) (opc : BitVec 4) (arg : Byte) :
    CF.ofWord w = ⟨opc, 0#4, arg⟩ ↔ w &&& 0xFF00#16 = CF.toWord ⟨opc, 0#4, 0#8⟩ ∧ arg = w.extractLsb' 0 8 := by
  have hmasked : w &&& 0xFF00#16 = CF.toWord { CF.ofWord w with arg := 0#8 } := by
    rw [← toWord_and_mask, toWord_ofWord]
  rw [hmasked, toWord_inj]
  simp [CF.ofWord, and_assoc, eq_comm]

/-! ### The decoder (R85 to R87) -/

/-- R87: fields decode to a command exactly when they are that command's fields. -/
theorem CF.decode_eq_command_iff (f : CF) (i : Instr) : f.decode = .command i ↔ f = i.fields := by
  constructor
  · obtain ⟨opc, rsv, arg⟩ := f
    intro h
    unfold CF.decode at h
    -- A branch that answers a command has tested each field that the command fixes.
    split_ifs at h <;> cases h <;> simp_all [Instr.fields, Instr.opc, Instr.arg]
  · rintro rfl
    cases i <;> rfl

/-- R80, R87: a word decodes to a command exactly when it is that command's word. -/
theorem decode_eq_command_iff (w : Word) (i : Instr) : decode w = .command i ↔ w = encode i := by
  rw [decode, CF.decode_eq_command_iff, encode, ← CF.toWord_inj, CF.toWord_ofWord]

/-- R84: the row of a command in the opcode map, for the mask 0xFF00 and the `match` of the command's opcode. -/
theorem decode_eq_command_iff_match_mask (w : Word) (opc : BitVec 4) {i : Instr} {arg : Byte} {m : Word}
    (hi : i.fields = ⟨opc, 0#4, arg⟩) (hm : CF.toWord ⟨opc, 0#4, 0#8⟩ = m) :
    decode w = .command i ↔ w &&& 0xFF00#16 = m ∧ arg = w.extractLsb' 0 8 := by
  rw [decode, CF.decode_eq_command_iff, hi, CF.ofWord_eq_iff_match_mask, hm]

/-- An opcode outside the map of R84 is one of those of R85. -/
theorem opc_reserved_of_ne {opc : BitVec 4} (h1 : opc ≠ 0x1#4) (h2 : opc ≠ 0x2#4) (h3 : opc ≠ 0x3#4) (h4 : opc ≠ 0x4#4)
    (h5 : opc ≠ 0x5#4) : opc = 0x0#4 ∨ 6 ≤ opc.toNat := by
  bv_omega

/-- R85, R86: fields are reserved exactly by their opcode, by a non-zero `RSV`, or as a `POP` with an operand. -/
theorem CF.decode_reserved_iff (f : CF) : (∃ why, f.decode = .reserved why) ↔
    (f.opc = 0x0#4 ∨ 6 ≤ f.opc.toNat) ∨ f.rsv ≠ 0x0#4 ∨ (f.opc = 0x3#4 ∧ f.arg ≠ 0x00#8) := by
  unfold CF.decode
  split_ifs with hrsv h1 h2 h3 harg h4 h5
  on_goal -1 => simpa using .inl (opc_reserved_of_ne h1 h2 h3 h4 h5)
  all_goals simp [*]

/-! ### Every command once (R84) -/

/-- Every operand once. -/
def allBytes : List Byte := (List.finRange 256).map BitVec.ofFin

@[simp] theorem length_allBytes : allBytes.length = 256 := by simp [allBytes]

@[simp] theorem mem_allBytes (b : Byte) : b ∈ allBytes := List.mem_map.mpr ⟨b.toFin, List.mem_finRange _, rfl⟩

theorem nodup_allBytes : allBytes.Nodup := (List.nodup_finRange 256).map fun _ _ h => congrArg BitVec.toFin h

/-- The commands, by opcode and then by operand. -/
def allCommands : List Instr :=
  allBytes.map .kbdIn ++ allBytes.map .serIn ++ [.pop] ++ allBytes.map .irqEnable ++ allBytes.map .picInit

theorem mem_allCommands (i : Instr) : i ∈ allCommands := by
  cases i <;> simp [allCommands]

theorem nodup_allCommands : allCommands.Nodup := by
  have hkbd : (allBytes.map Instr.kbdIn).Nodup := nodup_allBytes.map fun _ _ => Instr.kbdIn.inj
  have hser : (allBytes.map Instr.serIn).Nodup := nodup_allBytes.map fun _ _ => Instr.serIn.inj
  have hirq : (allBytes.map Instr.irqEnable).Nodup := nodup_allBytes.map fun _ _ => Instr.irqEnable.inj
  have hpic : (allBytes.map Instr.picInit).Nodup := nodup_allBytes.map fun _ _ => Instr.picInit.inj
  simp [allCommands, List.nodup_append, or_imp, forall_and, hkbd, hser, hirq, hpic]

theorem length_allCommands : allCommands.length = 1025 := by simp [allCommands]

/-- R87: a number of 16 bits decodes to a command exactly when it is the number of that command's word. -/
theorem decodeTableWord_eq_some_iff {n : Nat} (hn : n < 65536) (i : Instr) :
    decodeTableWord 16 n = some i ↔ n = (encode i).toNat := by
  have htable : (tableWord 16 n).toNat = n := by simp [tableWord, Nat.mod_eq_of_lt hn]
  have hdecode : decodeTableWord 16 n = some i ↔ decode (tableWord 16 n) = .command i := by
    rw [decodeTableWord]
    cases decode (tableWord 16 n) <;> simp
  rw [hdecode, decode_eq_command_iff, ← BitVec.toNat_inj, htable]

/-- R87: no two words decode to one command. -/
theorem nodup_decodedCommands : ((List.range 65536).filterMap (decodeTableWord 16)).Nodup := by
  refine List.pairwise_filterMap.mpr (List.nodup_range.imp_of_mem fun {n n'} hn hn' hne i hi i' hi' heq => hne ?_)
  subst heq
  rw [(decodeTableWord_eq_some_iff (List.mem_range.mp hn) i).mp hi, (decodeTableWord_eq_some_iff (List.mem_range.mp hn') i).mp hi']

/-- R87: every command is decoded from one of the words. -/
theorem mem_decodedCommands (i : Instr) : i ∈ (List.range 65536).filterMap (decodeTableWord 16) :=
  List.mem_filterMap.mpr ⟨_, List.mem_range.mpr (encode i).isLt, (decodeTableWord_eq_some_iff (encode i).isLt i).mpr rfl⟩

/-- R87: decoding all the words gives every command once. -/
theorem decodedCommands_perm : ((List.range 65536).filterMap (decodeTableWord 16)).Perm allCommands :=
  (List.perm_ext_iff_of_nodup nodup_decodedCommands nodup_allCommands).mpr fun i =>
    iff_of_true (mem_decodedCommands i) (mem_allCommands i)

end Sys2Proof
end

section
/-! PROOFS. The assembler's text (spec 30_encoding R90): the text of a command reads back as the command. -/

namespace Sys2Proof.Machine

/-- A hexadecimal digit reads back as its value. -/
theorem digitValue_hexDigit : ∀ n < 16, digitValue 16 (hexDigit n) = some n := by decide

/-- A byte's text reads back as the byte, to the end of the text. -/
theorem readOperand_hexByte (literal : Bool) (b : Byte) : readOperand literal (hexByte b) = some (b.toNat, []) := by
  have hhigh := digitValue_hexDigit (b.toNat / 16) (by omega)
  have hlow := digitValue_hexDigit (b.toNat % 16) (by omega)
  have hsum : 16 * (b.toNat / 16) + b.toNat % 16 = b.toNat := Nat.div_add_mod ..
  change readNat 16 [hexDigit (b.toNat / 16), hexDigit (b.toNat % 16)] = _
  simp [readNat, readDigits, hhigh, hlow, hsum]

/-- R90: a blank and a byte's text are an operand and the end of the line. -/
theorem withOperand_hexByte (literal : Bool) (make : Byte → Instr) (b : Byte) :
    withOperand literal make (' ' :: hexByte b) = .command (make b) := by
  have hskip : skipBlanks (' ' :: hexByte b) = hexByte b := rfl
  have hrange : b.toNat < 256 := b.isLt
  simp [withOperand, hskip, readOperand_hexByte, hrange, lineEnds, skipBlanks]

/-- R90: a line headed by a mnemonic and a blank is that command's. -/
theorem assembleLine_mnemonic {m : List Char} {literal : Bool} {make : Byte → Instr} (h : (m, literal, make) ∈ operandCommands)
    (t : List Char) : assembleLine (m ++ ' ' :: t) = withOperand literal make (' ' :: t) := by
  simp only [operandCommands, List.mem_cons, List.not_mem_nil, or_false, Prod.mk.injEq] at h
  obtain ⟨rfl, rfl, rfl⟩ | ⟨rfl, rfl, rfl⟩ | ⟨rfl, rfl, rfl⟩ | ⟨rfl, rfl, rfl⟩ := h <;> rfl

/-- R90: the text of a mnemonic and a byte is the command with that operand. -/
theorem assembleLine_hexByte {m : List Char} (literal : Bool) {make : Byte → Instr} (h : (m, literal, make) ∈ operandCommands)
    (b : Byte) : assembleLine (m ++ ' ' :: hexByte b) = .command (make b) :=
  (assembleLine_mnemonic h _).trans (withOperand_hexByte literal make b)

end Sys2Proof.Machine
end

section
/-! PROOFS. The statements of the encoding family (spec 30_encoding). -/

namespace Sys2Proof.Machine

/-- Settles O1: the decoder sees the fields the word was assembled from. -/
theorem decodeOfEncodeIsTheCommand : Obligations.DecodeOfEncodeIsTheCommand :=
  fun i _ => decode_encode i

/-- Settles O2: only the fields of a command decode to it, and a word is its fields. -/
theorem encodeOfDecodeIsTheWord : Obligations.EncodeOfDecodeIsTheWord :=
  fun w i h => ((decode_eq_command_iff w i).mp h).symm

/-- Settles O3: the row of each command, the mask of `POP` being the whole word. -/
theorem opcodeMapByMatchAndMask : Obligations.OpcodeMapByMatchAndMask := by
  intro w
  have hmask : w &&& 0xFFFF#16 = w := BitVec.and_allOnes
  rw [hmask]
  exact ⟨fun _ => decode_eq_command_iff_match_mask w 0x1#4 rfl (by decide), fun _ => decode_eq_command_iff_match_mask w 0x2#4 rfl (by decide),
    decode_eq_command_iff w .pop, fun _ => decode_eq_command_iff_match_mask w 0x4#4 rfl (by decide),
    fun _ => decode_eq_command_iff_match_mask w 0x5#4 rfl (by decide)⟩

/-- Settles O4: the decoder's branches on the fields of the word. -/
theorem reservedWordsAreExactlyThese : Obligations.ReservedWordsAreExactlyThese :=
  fun w => CF.decode_reserved_iff (CF.ofWord w)

/-- Settles O7, by the mnemonic and then the operand. -/
theorem assembleOfDisassembleIsTheCommand : Obligations.AssembleOfDisassembleIsTheCommand := by
  intro i
  cases i with
  | kbdIn code => exact assembleLine_hexByte false (by simp [operandCommands]) code
  | serIn b => exact assembleLine_hexByte true (by simp [operandCommands]) b
  | pop => rfl
  | irqEnable irq => exact assembleLine_hexByte false (by simp [operandCommands]) irq
  | picInit base => exact assembleLine_hexByte false (by simp [operandCommands]) base

/-- Settles O5: the words that decode are as many as the commands, which are counted. -/
theorem commandWordCountIs1025 : Obligations.CommandWordCountIs1025 := by
  unfold Obligations.CommandWordCountIs1025
  rw [← List.length_filterMap_eq_countP, decodedCommands_perm.length_eq, length_allCommands]

/-- Settles O6: the words of commands are their encodings, and the others run the decoder. -/
theorem wordsOfTheWorkedExamplesDecode : Obligations.WordsOfTheWorkedExamplesDecode :=
  ⟨decode_encode (.kbdIn 0x1E#8), decode_encode (.serIn 0xFF#8), decode_encode .pop, decode_encode (.irqEnable 15#8),
    decode_encode (.picInit 0x20#8), by decide, by decide, by decide⟩

end Sys2Proof.Machine
end

section
/-! PROOFS. The interrupt mask over a sequence of commands (spec 40_irq_mask R101 to R113). -/

namespace Sys2Proof.Machine

/-! ### The accepted lines of a sequence (R113) -/

/-- R113: the accepted lines of a sequence are those of its first command and those of the rest. -/
theorem acceptedLines_cons (i : Instr) (is : List Instr) : acceptedLines (i :: is) = acceptedLines [i] ||| acceptedLines is := by
  cases i <;> simp [acceptedLines]

/-- R113: one `IRQ_ENABLE` has its line accepted, if it is below 16. -/
theorem acceptedLines_irqEnable (irq : Byte) : acceptedLines [.irqEnable irq] = if irq.toNat < 16 then oneHot irq else 0#16 := by
  simp [acceptedLines]

/-- R113: one command has a bit accepted exactly when it is the `IRQ_ENABLE` of that line. -/
theorem acceptedLines_singleton_getLsbD_iff (i : Instr) (n : Nat) :
    (acceptedLines [i]).getLsbD n = true ↔ ∃ irq : Byte, .irqEnable irq = i ∧ irq.toNat < 16 ∧ irq.toNat = n := by
  cases i with
  | irqEnable irq =>
    rw [acceptedLines_irqEnable]
    split
    case isTrue hirq => simpa [oneHot_getLsbD hirq, hirq] using eq_comm
    case isFalse hirq => simp [hirq]
  | _ => simp [acceptedLines]

/-- R113: the bit of a line is set exactly when some `IRQ_ENABLE` of the sequence is accepted for it. -/
theorem acceptedLines_getLsbD_iff (cs : List Instr) (n : Nat) :
    (acceptedLines cs).getLsbD n = true ↔ ∃ irq : Byte, .irqEnable irq ∈ cs ∧ irq.toNat < 16 ∧ irq.toNat = n := by
  induction cs with
  | nil => simp [acceptedLines]
  | cons i is ih =>
    rw [acceptedLines_cons, BitVec.getLsbD_or, Bool.or_eq_true, ih, acceptedLines_singleton_getLsbD_iff]
    simp only [List.mem_cons, or_and_right, exists_or]

/-- R113: the accepted lines depend only on which commands are issued. -/
theorem acceptedLines_eq_of_perm {cs ds : List Instr} (h : cs.Perm ds) : acceptedLines cs = acceptedLines ds := by
  refine BitVec.eq_of_getLsbD_eq fun n _ => Bool.eq_iff_iff.mpr ?_
  simp only [acceptedLines_getLsbD_iff, h.mem_iff]

/-! ### The mask after commands -/

/-- A mask without any accepted line is the mask. -/
theorem and_not_zero (v : Word) : v &&& ~~~0#16 = v := BitVec.and_allOnes

/-- R101, R113: a command clears its accepted line in the mask, and nothing else of it. -/
theorem ExecEffect.imask_eq {i : Instr} {s t : State} (h : ExecEffect s i t) : t.imask = s.imask &&& ~~~acceptedLines [i] := by
  cases h with
  | irqCleared irq hi => simp [acceptedLines, hi, maskCleared]
  | irqRejected irq hi =>
    rw [acceptedLines_irqEnable, if_neg ((irqInRange_eq_false_iff irq).mp hi).not_gt, and_not_zero]
    rfl
  | _ => exact (and_not_zero _).symm

/-- R113: a sequence that runs to its end clears its accepted lines in the mask. -/
theorem issue_done_imask {cs : List Instr} {rs : List Word} {s t : State} (h : issue cs s = .done rs t) :
    t.imask = s.imask &&& ~~~acceptedLines cs := by
  induction cs generalizing s rs with
  | nil => cases h; exact (and_not_zero _).symm
  | cons i is ih =>
    obtain ⟨u, rs', hrun, -, htail, -⟩ := issue_cons_done h
    obtain ⟨-, j, hdecode, hexec⟩ := runWord_next hrun
    obtain rfl : i = j := Decoded.command.inj ((decode_encode i).symm.trans hdecode)
    rw [ih htail, (exec_effect hexec).imask_eq, acceptedLines_cons i is, BitVec.not_or, BitVec.and_assoc]

/-! ### `IRQ_ENABLE` before the controllers are programmed (R111) -/

/-- R101, R111: an `IRQ_ENABLE` before `PIC_INIT` changes the mask and the response only. -/
theorem exec_irqEnable_deferred (irq : Byte) {s : State} (hinit : s.init = false) :
    ∃ v, exec (.irqEnable irq) s = .next { s with imask := v, resp := 0#16 } := by
  cases hirq : irqInRange irq with
  | true => exact ⟨maskCleared s.imask irq, (execIrqEnable_inRange hirq).trans (by simp [hinit, emitAll, respond])⟩
  | false => exact ⟨s.imask, execIrqEnable_outOfRange hirq⟩

/-- R111: so does any number of them. -/
theorem issue_irqEnables_deferred (irqs : List Byte) {s : State} (hhalt : s.halt = false) (hinit : s.init = false) :
    ∃ rs v r, issue (irqs.map Instr.irqEnable) s = .done rs { s with imask := v, resp := r } := by
  induction irqs generalizing s with
  | nil => exact ⟨[], s.imask, s.resp, rfl⟩
  | cons irq irqs ih =>
    obtain ⟨v, hexec⟩ := exec_irqEnable_deferred irq hinit
    have hrun := (runWord_command hhalt (decode_encode (.irqEnable irq))).trans hexec
    obtain ⟨rs, v', r, htail⟩ := ih (s := { s with imask := v, resp := 0#16 }) hhalt hinit
    refine ⟨0#16 :: rs, v', r, ?_⟩
    rw [List.map_cons, issue_cons_next hrun hhalt, htail, mapAnswer_done]

end Sys2Proof.Machine
end

section
/-! PROOFS. The view of the two controllers under the block's writes (spec 60_exceptions R207; 40_irq_mask R100, R105, R114). -/

namespace Sys2Proof.Machine

/-! ### Which controller takes a write (R69, R207) -/

section Ports

variable {c : Config} (h : c.picOk = true) (u : PicUnit) (p : Pic) (v : Byte)
include h

/-- R69: the five ports the block writes are pairwise different. -/
theorem ports_nodup : [c.pic1Cmd, c.pic1Data, c.pic2Cmd, c.pic2Data, c.resetPort].Nodup :=
  of_decide_eq_true (Bool.and_eq_true_iff.mp h).1

theorem picTake_pic1Cmd : picTake c u p ⟨c.pic1Cmd, v⟩ = if u = .master then picCommand v p else p := by
  have hports := ports_nodup h
  cases u <;> grind [picTake, cmdPort, dataPort]

theorem picTake_pic1Data : picTake c u p ⟨c.pic1Data, v⟩ = if u = .master then picData v p else p := by
  have hports := ports_nodup h
  cases u <;> grind [picTake, cmdPort, dataPort]

theorem picTake_pic2Cmd : picTake c u p ⟨c.pic2Cmd, v⟩ = if u = .slave then picCommand v p else p := by
  have hports := ports_nodup h
  cases u <;> grind [picTake, cmdPort, dataPort]

theorem picTake_pic2Data : picTake c u p ⟨c.pic2Data, v⟩ = if u = .slave then picData v p else p := by
  have hports := ports_nodup h
  cases u <;> grind [picTake, cmdPort, dataPort]

/-- R69: the reset write reaches no controller. -/
theorem picTake_resetPort : picTake c u p ⟨c.resetPort, v⟩ = p := by
  have hports := ports_nodup h
  cases u <;> grind [picTake, cmdPort, dataPort]

end Ports

/-! ### What the writes of a command do -/

/-- R39, R64: a command changes the controllers by its I/O writes only. -/
theorem ExecEffect.pic_eq {i : Instr} {s t : State} (h : ExecEffect s i t) (u : PicUnit) :
    t.pic u = (emittedWrites s i).foldl (picTake s.cfg u) (s.pic u) := by
  obtain ⟨hcfg, -, hpast, hdraw⟩ := h.unowned_eq
  rw [← pic_emitAll]
  exact pic_congr (s := emitAll (emittedWrites s i) s) hcfg hpast h.out_eq hdraw u

/-- R100, R207: a ready controller takes its byte of the mask and stays ready. -/
theorem foldl_picTake_maskWrite {c : Config} (h : c.picOk = true) (v : Word) (u : PicUnit) {p : Pic} (hp : p.phase = .ready) :
    [⟨c.pic1Data, lowByte v⟩, ⟨c.pic2Data, highByte v⟩].foldl (picTake c u) p = { p with imr := maskByte v u } := by
  cases u <;> simp [picTake_pic1Data h, picTake_pic2Data h, picData, hp, maskByte]

/-- R207: an ICW1 starts the programming and clears the mask. -/
theorem picCommand_icw1 {v : Byte} (h : v.getLsbD 4 = true) (p : Pic) :
    picCommand v p = { p with icw1 := v, imr := 0#8, phase := .icw2 } := if_pos h

/-- R207: an OCW2 or OCW3 changes nothing of the view. -/
theorem picCommand_ocw {v : Byte} (h : v.getLsbD 4 = false) (p : Pic) : picCommand v p = p := if_neg (Bool.eq_false_iff.mp h)

/-- R105, R207: ICW1 to ICW4, two OCW3s and a mask byte program a controller, whatever it was before. -/
theorem picProgram_eq {c : Config} (h : c.bytesOk = true) (base icw3 mask : Byte) (p : Pic) :
    picData mask (picCommand c.ocw3b (picCommand c.ocw3a (picData c.icw4 (picData icw3 (picData base (picCommand c.icw1 p)))))) =
      { phase := .ready, icw1 := c.icw1, vecBase := base, imr := mask } := by
  simp only [Config.bytesOk, Bool.and_eq_true, Bool.not_eq_true'] at h
  obtain ⟨⟨⟨⟨⟨⟨⟨⟨⟨⟨hicw1, -⟩, hcascaded⟩, hicw4⟩, -⟩, -⟩, -⟩, hocw3a⟩, -⟩, hocw3b⟩, -⟩ := h
  rw [picCommand_icw1 hicw1, picCommand_ocw hocw3a, picCommand_ocw hocw3b]
  simp only [picData, hcascaded, hicw4, Bool.not_false, if_true]

/-- R107: the vector base that `PIC_INIT base` gives a controller. -/
def unitBase (base : Byte) : PicUnit → Byte
  | .master => base
  | .slave => slaveBase base

/-- R105, R207: the sixteen writes leave each controller ready, with its vector base and its byte of the mask. -/
theorem foldl_picTake_picSequence {c : Config} (h : c.picOk = true) (base : Byte) (v : Word) (u : PicUnit) (p : Pic) :
    (picSequence c base v).foldl (picTake c u) p =
      { phase := .ready, icw1 := c.icw1, vecBase := unitBase base u, imr := maskByte v u } := by
  have hbytes : c.bytesOk = true := (Bool.and_eq_true_iff.mp h).2
  -- Each controller takes the writes to its own two ports: a first mask of 0xFF, then the programming.
  cases u <;>
    simp [picSequence, picTake_pic1Cmd h, picTake_pic1Data h, picTake_pic2Cmd h, picTake_pic2Data h, picProgram_eq hbytes, unitBase,
      maskByte]

/-- R204: the bit of a line in its controller's byte of the mask is the line's bit of the mask. -/
theorem maskByte_lineUnit_getLsbD (v : Word) {n : Nat} (hn : n < 16) : (maskByte v (lineUnit n)).getLsbD (n % 8) = v.getLsbD n := by
  have hmod : n % 8 < 8 := Nat.mod_lt _ (by decide)
  unfold lineUnit
  split
  · rename_i hlow
    simp [maskByte, lowByte, Nat.mod_eq_of_lt hlow, hlow]
  · have hline : 8 + n % 8 = n := by omega
    simp [maskByte, highByte, hmod, hline]

/-! ### Agreement of the controllers with the mask (R114) -/

/-- R114: every command keeps the programmed controllers in agreement with the mask. -/
theorem ExecEffect.controllersAgree {i : Instr} {s t : State} (h : ExecEffect s i t) (hc : s.cfg.picOk = true)
    (hs : ControllersAgree s) : ControllersAgree t := by
  have hpic := h.pic_eq
  cases h with
  | resetRequest code d hd hr =>
    intro hinit u
    subst hd
    rw [hpic, emittedWrites, if_pos hr, List.foldl_cons, picTake_resetPort hc]
    exact hs hinit u
  | irqCleared irq hi =>
    intro hinit u
    obtain ⟨hready, -⟩ := hs hinit u
    rw [hpic, emittedWrites, if_pos ⟨(irqInRange_iff irq).mp hi, hinit⟩, foldl_picTake_maskWrite hc _ u hready]
    exact ⟨hready, rfl⟩
  | programmed base =>
    intro _ u
    rw [hpic, emittedWrites, foldl_picTake_picSequence hc]
    exact ⟨rfl, rfl⟩
  | _ => exact hs

/-- R36: nothing is asked of controllers that have not been programmed. -/
theorem controllersAgree_of_init_eq_false {s : State} (h : s.init = false) : ControllersAgree s :=
  fun hinit => absurd hinit (by simp [h])

/-! ### The last write to a port -/

/-- The last write decides, or the writes before it do. -/
theorem lastWriteTo_concat (p : Port) (ws : List IOW) (w : IOW) :
    lastWriteTo p (ws ++ [w]) = if w.port = p then some w.value else lastWriteTo p ws := by
  split <;> simp [lastWriteTo, List.filter_append, *]

/-- R105: the sixteen writes end with the mask's byte to each controller's data port. -/
theorem lastWriteTo_picSequence {c : Config} (h : c.picOk = true) (base : Byte) (v : Word) :
    lastWriteTo c.pic1Data (picSequence c base v) = some (lowByte v) ∧
      lastWriteTo c.pic2Data (picSequence c base v) = some (highByte v) := by
  have hne : c.pic2Data ≠ c.pic1Data := by
    have hports := ports_nodup h
    grind
  have hseq : picSequence c base v =
      (picSequence c base v).take 14 ++ [⟨c.pic1Data, lowByte v⟩] ++ [⟨c.pic2Data, highByte v⟩] := rfl
  rw [hseq]
  simp only [lastWriteTo_concat, hne, if_true, if_false, and_self]

end Sys2Proof.Machine
end

section
/-! PROOFS. The statements of the interrupt mask family (spec 40_irq_mask). -/

namespace Sys2Proof.Machine

/-- Settles O46: the deferred `IRQ_ENABLE`s only clear their bits of the mask, and `PIC_INIT` writes the mask as it then stands. -/
theorem deferredEnablesApplyAtPicInit : Obligations.DeferredEnablesApplyAtPicInit := by
  intro irqs base s hc hhalt hinit hout himask hirqs
  obtain ⟨rs, v, r, hdone⟩ := issue_irqEnables_deferred irqs hhalt hinit
  have hv : v = s.cfg.imaskReset &&& ~~~acceptedLines (irqs.map Instr.irqEnable) := himask ▸ issue_done_imask hdone
  let t : State := { s with imask := v, resp := r }
  obtain ⟨u, hexec⟩ : ∃ u, exec (.picInit base) t = .next u := ⟨_, rfl⟩
  have heffect := exec_effect hexec
  have hrun := (runWord_command (s := t) hhalt (decode_encode (.picInit base))).trans hexec
  have huhalt : u.halt = false := by cases heffect; exact hhalt
  have huout : u.out = picSequence s.cfg base v := by
    rw [heffect.out_eq, show t.out = [] from hout, List.nil_append, emittedWrites]
  obtain ⟨hmaster, hslave⟩ := lastWriteTo_picSequence hc base v
  refine ⟨rs, t, rs ++ [u.resp], u, v, hdone, hout, ?_, hv, huout ▸ hmaster, huout ▸ hslave, fun irq hmem => ?_⟩
  · rw [issue_append _ hdone, issue_cons_next hrun huhalt]
    rfl
  · have hline := hirqs irq hmem
    have haccepted : (acceptedLines (irqs.map Instr.irqEnable)).getLsbD irq.toNat = true :=
      (acceptedLines_getLsbD_iff _ _).mpr ⟨irq, List.mem_map_of_mem hmem, hline, rfl⟩
    rw [heffect.pic_eq, emittedWrites, foldl_picTake_picSequence (c := t.cfg) hc, maskByte_lineUnit_getLsbD _ hline,
      show t.imask = v from rfl, hv]
    simp [haccepted]

/-- Settles O48: a command keeps the agreement, arbitration changes the stream only, and both resets clear `INIT`. -/
theorem stepsKeepTheControllersInAgreement : Obligations.StepsKeepTheControllersInAgreement := by
  intro s t hc hs hstep
  refine ⟨tablesAreReadOnly s t hstep ▸ hc, ?_⟩
  obtain ⟨-, rfl⟩ | ⟨x, rest, -, ⟨w, i, -, -, -, hexec⟩ | ⟨p, b, k, -, rfl⟩ | ⟨-, rfl⟩ | ⟨-, rfl⟩⟩ := step_cases hstep
  · exact hs
  · exact (exec_effect hexec).controllersAgree hc hs
  · exact hs
  · exact controllersAgree_of_init_eq_false rfl
  · exact controllersAgree_of_init_eq_false rfl

/-- Settles O38: the new mask is the old one without the line's bit. -/
theorem irqEnableClearsOneBit : Obligations.IrqEnableClearsOneBit :=
  fun s irq hirq => ⟨maskCleared s.imask irq, maskCleared_getLsbD hirq, execIrqEnable_inRange ((irqInRange_iff irq).mpr hirq)⟩

/-- Settles O41, by the effects of the two commands: a line below 16, a line of 16 or more, and the programming. -/
theorem maskCommandsFrame : Obligations.MaskCommandsFrame := by
  rintro i s t (⟨irq, rfl⟩ | ⟨base, rfl⟩) hexec
  · cases exec_effect hexec with
    | irqCleared _ hirq =>
      refine ⟨rfl, rfl, rfl, rfl, rfl, rfl, rfl, rfl, fun _ => rfl, ?_, nofun⟩
      rintro _ ⟨⟩
      refine ⟨rfl, fun hinit => by simp [hinit], fun n hn => ?_⟩
      simp [maskCleared_getLsbD ((irqInRange_iff irq).mp hirq), hn]
    | irqRejected => exact ⟨rfl, rfl, rfl, rfl, rfl, rfl, rfl, rfl, fun _ => rfl, fun _ _ => ⟨rfl, fun _ => rfl, fun _ _ => rfl⟩, nofun⟩
  · cases exec_effect hexec with
    | programmed => exact ⟨rfl, rfl, rfl, rfl, rfl, rfl, rfl, rfl, fun _ => rfl, nofun, fun _ _ => rfl⟩

/-- Settles O45: each command clears its accepted line, and the accepted lines depend only on which commands there are. -/
theorem maskIsResetValueWithoutTheAcceptedLines : Obligations.MaskIsResetValueWithoutTheAcceptedLines :=
  ⟨fun _ n hirq => oneHot_getLsbD hirq n, fun _ _ _ _ himask hdone => himask ▸ issue_done_imask hdone,
    fun _ _ hperm => acceptedLines_eq_of_perm hperm⟩

/-- Settles O39: the range check rejects the line. -/
theorem irqEnableOutOfRangeChangesNothing : Obligations.IrqEnableOutOfRangeChangesNothing :=
  fun _ irq hirq => execIrqEnable_outOfRange ((irqInRange_eq_false_iff irq).mpr hirq)

/-- R107: the slave's vector base is the sum reduced modulo 256. -/
theorem slaveBase_eq_ofNat (base : Byte) : slaveBase base = BitVec.ofNat 8 ((base.toNat + 8) % 256) := by
  refine BitVec.eq_of_toNat_eq ?_
  simp [slaveBase]

/-- Settles O40: the writes are those of R105, with the slave's vector base as R107 gives it. -/
theorem picInitEmitsTheSixteenWrites : Obligations.PicInitEmitsTheSixteenWrites := by
  intro s base
  rw [← slaveBase_eq_ofNat]
  rfl

end Sys2Proof.Machine
end

section
/-! PROOFS. The decoder's three cases, what the character of a make code depends on, and the reset combination of the reference tables (spec 41_scan_decoder R131 to R143, R150, R153). -/

namespace Sys2Proof.Machine

/-! ### The three cases (R132) -/

section Cases

variable {code : Byte} (c : Config) (m : ModBits)

theorem kdec_escape : kdec c 0xE0#8 m = kdecEscape m := if_pos rfl

theorem kdec_break (hcode : code ≠ 0xE0#8) (hbit : code.getLsbD 7 = true) : kdec c code m = kdecBreak c code m := by
  rw [kdec, if_neg (show code ≠ escapeCode from hcode), if_pos hbit]

theorem kdec_make (hbit : code.getLsbD 7 = false) : kdec c code m = kdecMake c code m := by
  have hcode : code ≠ escapeCode := by rintro rfl; exact absurd hbit (by decide)
  rw [kdec, if_neg hcode, if_neg (ne_true_of_eq_false hbit)]

/-- With bit 7 set, the escape code included, there is no character and no reset request (R133, R134). -/
theorem kdec_char_rst_of_bit7 (hbit : code.getLsbD 7 = true) : (kdec c code m).char = 0#8 ∧ (kdec c code m).rst = false := by
  by_cases hcode : code = 0xE0#8
  · rw [hcode, kdec_escape]
    exact ⟨rfl, rfl⟩
  · rw [kdec_break c m hcode hbit]
    exact ⟨rfl, rfl⟩

/-- R132: only a make code gives a character. -/
theorem kdec_char : (kdec c code m).char = if code.getLsbD 7 then 0#8 else makeChar c code m := by
  cases hbit : code.getLsbD 7 with
  | true => exact (kdec_char_rst_of_bit7 c m hbit).1
  | false => rw [kdec_make c m hbit]; rfl

/-- R132, R142: only a make code can raise the reset request. -/
theorem kdec_rst_iff : (kdec c code m).rst = true ↔
    code.getLsbD 7 = false ∧ allSet (makeMod c code m) (CTL ||| ALT) = true ∧ makeChar c code m = c.keyDel := by
  cases hbit : code.getLsbD 7 with
  | true => simp [(kdec_char_rst_of_bit7 c m hbit).2]
  | false => simp [kdec_make c m hbit, kdecMake, resetCombo]

end Cases

/-! ### The tests of the modifier state as the spec writes them (R131, R134, R135, R138, R139) -/

theorem anySet_iff (m bits : ModBits) : anySet m bits = true ↔ m &&& bits ≠ 0#7 := bne_iff_ne

theorem escapePending_iff (m : ModBits) : escapePending m = true ↔ m &&& 0x40#7 ≠ 0#7 := bne_iff_ne

/-- R138, R150 point 1: ctrl selects the shared table, with or without shift. -/
theorem kmap_tableSelect (c : Config) (m : ModBits) :
    kmap c (tableSelect m) = if anySet m CTL then c.kmapCtl else if anySet m SHIFT then c.kmapShift else c.kmapNormal := by
  unfold tableSelect
  cases anySet m CTL <;> cases anySet m SHIFT <;> rfl

theorem isLower_iff (b : Byte) : isLower b = true ↔ 0x61 ≤ b.toNat ∧ b.toNat ≤ 0x7A := by simp [isLower]

theorem isUpper_iff (b : Byte) : isUpper b = true ↔ 0x41 ≤ b.toNat ∧ b.toNat ≤ 0x5A := by simp [isUpper]

/-! ### Bits that a code does not touch -/

/-- Two values that agree on a set of bits agree on each of its subsets. -/
theorem and_eq_and_of_subset {n : Nat} {x y big small : BitVec n} (h : x &&& big = y &&& big) (hsub : big &&& small = small) :
    x &&& small = y &&& small := by
  rw [← hsub, ← BitVec.and_assoc, h, BitVec.and_assoc]

/-- Two values whose difference avoids a set of bits agree on it. -/
theorem and_eq_and_of_xor {n : Nat} {x y bits : BitVec n} (h : (x ^^^ y) &&& bits = 0#n) : x &&& bits = y &&& bits := by
  rw [← BitVec.xor_eq_zero_iff, ← h]
  exact BitVec.eq_of_getElem_eq (by simp [Bool.and_xor_distrib_right])

/-- Clearing bits keeps the ones that are not among them. -/
theorem not_and_eq_of_disjoint {n : Nat} {x bits : BitVec n} (h : x &&& bits = 0#n) : ~~~x &&& bits = bits := by
  ext k hk
  have hbit : (x[k] && bits[k]) = false := by rw [← BitVec.getElem_and, h, BitVec.getElem_zero]
  cases hx : x[k] <;> simp_all

/-- R134: a break code sets no bit. -/
theorem modAfterBreak_and_not (held m : ModBits) : modAfterBreak held m &&& ~~~m = 0#7 := by
  rw [modAfterBreak, BitVec.and_comm m, BitVec.and_assoc, BitVec.and_not_self]
  exact BitVec.and_zero

/-- R134: a break code keeps every bit that is neither held by its key nor the escape. -/
theorem modAfterBreak_and_of_disjoint {held bits : ModBits} (m : ModBits) (hheld : held &&& bits = 0#7) (hesc : E0ESC &&& bits = 0#7) :
    modAfterBreak held m &&& bits = m &&& bits := by
  have hdisj : (held ||| E0ESC) &&& bits = 0#7 := by rw [BitVec.and_or_distrib_right, hheld, hesc, BitVec.or_zero]
  rw [modAfterBreak, BitVec.and_assoc, not_and_eq_of_disjoint hdisj]

/-- R135 to R137: what a make code leaves in a set of bits depends on these bits only. -/
theorem modAfterMake_and_congr {m n bits : ModBits} (held toggle : ModBits) (h : m &&& bits = n &&& bits) :
    modAfterMake held toggle m &&& bits = modAfterMake held toggle n &&& bits := by
  have hand (x : ModBits) : modAfterMake held toggle x &&& bits =
      (((x &&& bits) &&& ~~~E0ESC) ||| (held &&& bits)) ^^^ (toggle &&& bits) :=
    BitVec.eq_of_getElem_eq (by simp [modAfterMake, Bool.and_xor_distrib_right, Bool.and_or_distrib_right, Bool.and_right_comm])
  rw [hand, hand, h]

/-! ### What the character of a make code depends on (R138, R139) -/

/-- The modifiers that the character of a make code can depend on. -/
abbrev charModifiers : ModBits := SHIFT ||| CTL ||| CAPSLOCK ||| E0ESC

section CharCongr

variable {m n : ModBits}

theorem anySet_congr {big bits : ModBits} (h : m &&& big = n &&& big) (hsub : big &&& bits = bits) : anySet m bits = anySet n bits := by
  rw [anySet, anySet, and_eq_and_of_subset h hsub]

theorem makeIndex_congr (code : Byte) (h : m &&& charModifiers = n &&& charModifiers) : makeIndex code m = makeIndex code n := by
  have hesc : escapePending m = escapePending n := anySet_congr (bits := E0ESC) h (by decide)
  rw [makeIndex, makeIndex, hesc]

theorem makeMod_and_congr (c : Config) (code : Byte) (h : m &&& charModifiers = n &&& charModifiers) :
    makeMod c code m &&& charModifiers = makeMod c code n &&& charModifiers := by
  rw [makeMod, makeMod, makeIndex_congr code h]
  exact modAfterMake_and_congr _ _ h

theorem makeChar_congr (c : Config) (code : Byte) (h : m &&& charModifiers = n &&& charModifiers) :
    makeChar c code m = makeChar c code n := by
  have hmod := makeMod_and_congr c code h
  have hshift := anySet_congr (bits := SHIFT) hmod (by decide)
  have hctl := anySet_congr (bits := CTL) hmod (by decide)
  have hcaps := anySet_congr (bits := CAPSLOCK) hmod (by decide)
  simp only [makeChar, capsFlip, kmap_tableSelect, makeIndex_congr code h, hshift, hctl, hcaps]

end CharCongr

/-! ### The reset combination (R142, R153) -/

/-- R139: caps lock turns letters into letters, so it neither makes nor hides a byte that is no letter. -/
theorem capsFlip_eq_iff {k : Byte} (m : ModBits) (ch : Byte) (hlower : isLower k = false) (hupper : isUpper k = false) :
    capsFlip m ch = k ↔ ch = k := by
  rw [← Bool.not_eq_true, isLower_iff] at hlower
  rw [← Bool.not_eq_true, isUpper_iff] at hupper
  unfold capsFlip
  split
  case isTrue h =>
    have hch := (isLower_iff ch).mp (Bool.and_eq_true_iff.mp h).2
    constructor <;> intro heq <;> bv_omega
  case isFalse =>
    split
    case isTrue h =>
      have hch := (isUpper_iff ch).mp (Bool.and_eq_true_iff.mp h).2
      constructor <;> intro heq <;> bv_omega
    case isFalse => exact Iff.rfl

/-- R142: with ctrl and alt held the character comes from the ctrl table. -/
theorem kmap_tableSelect_of_ctl_alt {m : ModBits} (c : Config) (h : allSet m (CTL ||| ALT) = true) : kmap c (tableSelect m) = c.kmapCtl := by
  have hctl : m &&& CTL = CTL :=
    calc m &&& CTL
        = m &&& (CTL ||| ALT) &&& CTL := by rw [BitVec.and_assoc]; rfl
      _ = CTL := by rw [beq_iff_eq.mp h]; rfl
  rw [kmap_tableSelect, if_pos ((anySet_iff m CTL).mpr (by rw [hctl]; decide))]

/-- R153: `KEY_DEL` is at 0xD3 only of the reference ctrl table. -/
theorem refKmapCtl_entry_eq_keyDel_iff (idx : Byte) : Config.entry refKmapCtl idx = 0xE9#8 ↔ idx = 0xD3#8 := by
  revert idx
  decide +kernel

/-- R135: a make code has the index 0xD3 exactly as the code 0x53 after an escape. -/
theorem makeIndex_eq_delete_iff {code : Byte} (m : ModBits) (hbit : code.getLsbD 7 = false) :
    makeIndex code m = 0xD3#8 ↔ code = 0x53#8 ∧ escapePending m = true := by
  cases hesc : escapePending m with
  | true =>
    have hor : ∀ code : Byte, code.getLsbD 7 = false → (code ||| 0x80#8 = 0xD3#8 ↔ code = 0x53#8) := by decide +kernel
    simpa [makeIndex, hesc] using hor code hbit
  | false =>
    have hcode : code ≠ 0xD3#8 := by rintro rfl; exact absurd hbit (by decide)
    simpa [makeIndex, hesc] using hcode

/-- R154, R155: the reference delete key holds and toggles nothing. -/
theorem makeMod_refConfig_of_delete {code : Byte} {m : ModBits} (h : makeIndex code m = 0xD3#8) :
    makeMod refConfig code m = m &&& ~~~E0ESC := by
  have hheld : Config.entry refConfig.shiftCode 0xD3#8 = 0#7 := by decide +kernel
  have htoggle : Config.entry refConfig.toggleCode 0xD3#8 = 0#7 := by decide +kernel
  rw [makeMod, h, hheld, htoggle, modAfterMake, BitVec.or_zero, BitVec.xor_zero]

/-- R142, R153: with ctrl and alt held, the reference tables give `KEY_DEL` at the index 0xD3 only. -/
theorem makeChar_refConfig_eq_keyDel_iff {code : Byte} {m : ModBits} (h : allSet (makeMod refConfig code m) (CTL ||| ALT) = true) :
    makeChar refConfig code m = refConfig.keyDel ↔ makeIndex code m = 0xD3#8 := by
  rw [makeChar, kmap_tableSelect_of_ctl_alt _ h, capsFlip_eq_iff _ _ (by decide) (by decide)]
  exact refKmapCtl_entry_eq_keyDel_iff _

/-- The three modifiers of the reset combination, as the code 0x53 finds them and as it leaves them (R135, R142). -/
theorem escape_ctl_alt_iff (m : ModBits) : m &&& (CTL ||| ALT ||| E0ESC) = CTL ||| ALT ||| E0ESC ↔
    escapePending m = true ∧ allSet (m &&& ~~~E0ESC) (CTL ||| ALT) = true := by
  revert m
  decide

end Sys2Proof.Machine
end

section
/-! PROOFS. The statements of the scan-code decoder family (spec 41_scan_decoder). -/

namespace Sys2Proof.Machine

/-! ### The decoder -/

/-- Settles O21, by the three cases of R132; the tests of the modifier state are read as the spec writes them. -/
theorem decoderFunctionAsGathered : Obligations.DecoderFunctionAsGathered := by
  intro c code m
  refine ⟨?_, fun hcode hbit idx hidx => ?_, fun hbit idx m3 c0 ch hidx hm3 hc0 hch => ?_⟩
  · rintro rfl
    exact kdec_escape c m
  · have hindex : breakIndex code m = idx := by simp only [hidx, breakIndex, escapePending_iff]
    rw [kdec_break c m hcode hbit, kdecBreak, hindex]
    rfl
  · have hindex : makeIndex code m = idx := by simp only [hidx, makeIndex, escapePending_iff]
    have hmod : makeMod c code m = m3 := by rw [makeMod, hindex, hm3]; rfl
    have hentry : Config.entry (kmap c (tableSelect m3)) idx = c0 := by
      simp only [hc0, kmap_tableSelect, anySet_iff, CTL, SHIFT]
    have hchar : makeChar c code m = ch := by
      simp only [makeChar, hmod, hindex, hentry, capsFlip, Bool.and_eq_true, anySet_iff, isLower_iff, isUpper_iff, hch, CAPSLOCK]
    have hrst : resetCombo c m3 ch = decide (m3 &&& 0x06#7 = 0x06#7 ∧ ch = c.keyDel) := (Bool.decide_and ..).symm
    rw [kdec_make c m hbit, kdecMake, hmod, hchar, hrst]

/-- Settles O22: a break code only clears the bits held by its key and the escape, and no key holds a toggle. -/
theorem breakCodesOnlyClearHeldBits : Obligations.BreakCodesOnlyClearHeldBits := by
  intro c code m hcode hbit
  rw [kdec_break c m hcode hbit]
  refine ⟨modAfterBreak_and_not _ m, modAfterBreak_and_e0esc _ m, rfl, rfl, fun hheld => ?_⟩
  have hentry (i : Byte) : Config.entry c.shiftCode i &&& (CAPSLOCK ||| NUMLOCK ||| SCROLLLOCK) = 0#7 :=
    and_eq_zero_of_subset (beq_iff_eq.mp (entry_of_all i hheld (by decide))) (by decide)
  exact modAfterBreak_and_of_disjoint m (hentry _) (by decide)

/-- Settles O24: a make code's character is a function of the bits on which the two modifier states agree. -/
theorem onlyShiftCtlCapsAndEscapeChangeTheCharacter : Obligations.OnlyShiftCtlCapsAndEscapeChangeTheCharacter := by
  intro c code m n hdiff
  rw [kdec_char, kdec_char, makeChar_congr c code (and_eq_and_of_xor hdiff)]

/-- Settles O25: the request needs the index 0xD3, at which the tables leave ctrl and alt as they were. -/
theorem resetComboWithTheReferenceTables : Obligations.ResetComboWithTheReferenceTables := by
  intro code m
  rw [kdec_rst_iff, escape_ctl_alt_iff]
  constructor
  · rintro ⟨hbit, hheld, hchar⟩
    have hindex := (makeChar_refConfig_eq_keyDel_iff hheld).mp hchar
    obtain ⟨hcode, hesc⟩ := (makeIndex_eq_delete_iff m hbit).mp hindex
    exact ⟨hcode, hesc, makeMod_refConfig_of_delete hindex ▸ hheld⟩
  · rintro ⟨rfl, hesc, hheld⟩
    have hindex := (makeIndex_eq_delete_iff m (by decide)).mpr ⟨rfl, hesc⟩
    rw [← makeMod_refConfig_of_delete hindex] at hheld
    exact ⟨by decide, hheld, (makeChar_refConfig_eq_keyDel_iff hheld).mpr hindex⟩

/-! ### `KBD_IN` -/

/-- R89: the response to a byte other than 0 has `VALID` 1. -/
theorem producerResponse_of_ne {b : Byte} (hb : b ≠ 0#8) : producerResponse b = 0x0100#16 ||| b.setWidth 16 := by
  rw [producerResponse, bne_iff_ne.mpr hb]
  rfl

/-- Settles O26, by the three effects of `KBD_IN`; with `CAP` at least 1 the push finds its slot. -/
theorem kbdInDecodesPushesOrRequestsReset : Obligations.KbdInDecodesPushesOrRequestsReset := by
  rintro s code d hcap rfl
  refine ⟨fun hrst => ?_, fun hrst hchar => ?_, fun hrst hchar => ?_⟩
  · exact (ExecEffect.resetRequest code _ rfl hrst).exec_eq
  · exact (ExecEffect.noCharacter code _ rfl hrst hchar).exec_eq
  · rw [← producerResponse_of_ne hchar]
    exact (ExecEffect.character code _ rfl hrst hchar (slot_lt _ hcap)).exec_eq

/-- Settles O27, by the three effects of `KBD_IN`; only the push stores, and only at the slot of `WPTR`. -/
theorem kbdInFrame : Obligations.KbdInFrame := by
  intro s t code hexec
  cases exec_effect hexec with
  | resetRequest _ d hd hrst =>
    subst hd
    exact ⟨rfl, rfl, rfl, rfl, rfl, rfl, rfl, fun _ _ => rfl, fun _ => ⟨rfl, fun _ => rfl⟩, fun _ => rfl, fun h => by simp [hrst] at h⟩
  | noCharacter _ d hd hrst hchar =>
    subst hd
    exact ⟨rfl, rfl, rfl, rfl, rfl, rfl, rfl, fun _ _ => rfl, fun _ => ⟨rfl, fun _ => rfl⟩, fun h => by simp [hrst] at h, fun _ => ⟨rfl, rfl⟩⟩
  | character _ d hd hrst hchar _ =>
    subst hd
    refine ⟨rfl, rfl, rfl, rfl, rfl, rfl, rfl, fun a ha => Memory.read_write_other ha, fun h => ?_, fun h => ?_, fun _ => ⟨rfl, rfl⟩⟩
    · simp [hchar, hrst] at h
    · simp [hrst] at h

end Sys2Proof.Machine
end

section
/-! PROOFS. Pointer arithmetic as the rules write it, and what each primitive of the ring can do to a state that need not be legal (spec 10_state R31, R182; 42_input_fifo R171, R172, R180). -/

namespace Sys2Proof.Machine

/-! ### Pointers without `wrap` -/

/-- R31: `FILL` as the rules write it. -/
theorem fill_coe {s : State} (hc : 0 < s.cfg.cap) : (fill s : Int) = ((s.wptr : Int) - s.rptr) % (2 * s.cfg.cap) := wrap_coe _ hc

/-- R182: a sum of pointers is reduced as a natural number. -/
theorem wrap_natCast (s : State) (n : Nat) : wrap s n = n % (2 * s.cfg.cap) := by
  have hmod : (n : Int) % (2 * (s.cfg.cap : Int)) = ((n % (2 * s.cfg.cap) : Nat) : Int) := by push_cast; rfl
  rw [wrap, hmod, Int.toNat_natCast]

/-- R171: where a push leaves `WPTR`, as the rule writes it. -/
theorem pushedPtr_eq_ite {s : State} (hc : 0 < s.cfg.cap) :
    pushedPtr s = if ((s.wptr : Int) - s.rptr) % (2 * s.cfg.cap) = 2 * s.cfg.cap - 1
      then (s.wptr + 1 + s.cfg.cap) % (2 * s.cfg.cap) else (s.wptr + 1) % (2 * s.cfg.cap) := by
  have hfold : fill s + 1 = 2 * s.cfg.cap ↔ (fill s : Int) = 2 * s.cfg.cap - 1 := by omega
  simp only [pushedPtr, hfold, fill_coe hc]
  exact if_congr Iff.rfl (wrap_natCast s (s.wptr + 1 + s.cfg.cap)) (wrap_natCast s (s.wptr + 1))

/-- R172: the pointer a pop reads at, as the rule writes it. -/
theorem oldestPtr_eq_ite {s : State} (hc : 0 < s.cfg.cap) :
    oldestPtr s = if (s.cfg.cap : Int) < ((s.wptr : Int) - s.rptr) % (2 * s.cfg.cap)
      then (s.wptr + s.cfg.cap) % (2 * s.cfg.cap) else s.rptr := by
  simp only [oldestPtr, overrun, decide_eq_true_eq, ← fill_coe hc, Int.ofNat_lt]
  exact if_congr Iff.rfl (wrap_natCast s (s.wptr + s.cfg.cap)) rfl

/-! ### The primitives -/

/-- R172: a pop that succeeds takes nothing and changes nothing, or moves `RPTR` on. -/
theorem ringPop_ok {v : Option Byte} {s t : State} (h : ringPop s = .ok (v, t)) : t = s ∨ t = popped s := by
  unfold ringPop at h
  split at h
  · cases h; exact .inl rfl
  · split at h
    · cases h
    · cases h; exact .inr rfl

/-- R172, R174: what `POP` answers from a legal ring: the head of `Q`, which it takes. -/
theorem exec_pop_of_ringInv {s : State} (hs : RingInv s) :
    ∃ t, exec .pop s = .next t ∧ t.halt = s.halt ∧ t.resp = popResponse (queue s).head? ∧ queue t = (queue s).tail := by
  obtain ⟨hc, ⟨-, hr⟩, -⟩ := hs
  by_cases hf : fill s = 0
  · have hq : queue s = [] := (queue_eq_nil_iff hc).mpr hf
    exact ⟨_, execPop_empty hf, rfl, by rw [hq]; rfl, by rw [hq]; exact hq⟩
  · have hq := queue_eq_cons_popped hc hr hf
    exact ⟨_, execPop_some hc hf, rfl, by rw [hq]; rfl, by rw [hq]; rfl⟩

/-- R89: the byte that a response of `POP` carries, 0 from an empty ring. -/
theorem lowByte_popResponse (v : Option Byte) : lowByte (popResponse v) = v.getD 0#8 := by
  cases v with
  | none => rfl
  | some b => exact (response_fields true b).2.2

/-- R89: `POP` answers 0x0000 exactly from an empty ring. -/
theorem popResponse_eq_zero_iff (v : Option Byte) : popResponse v = 0x0000#16 ↔ v = none := by
  cases v with
  | none => exact iff_of_true rfl rfl
  | some b =>
    refine iff_of_false (fun h => ?_) (Option.some_ne_none b)
    have hvalid : (popResponse (some b)).getLsbD 8 = true := (response_fields true b).2.1
    simp [h] at hvalid

end Sys2Proof.Machine
end

section
/-! PROOFS. Sequences of commands at the abstract console: what a sequence pushes and pops, and the bounded queue it leaves (spec 41_scan_decoder R140, R142; 42_input_fifo R173, R175, R178, R179, R183). -/

namespace Sys2Proof.Machine

/-! ### Any number of pushes on a bounded queue -/

/-- R183: pushes into a queue of at most `cap` bytes, in the order of the list. -/
def boundedPushAll (cap : Nat) (bs q : List Byte) : List Byte := bs.foldl (fun q b => boundedPush cap b q) q

@[simp] theorem boundedPushAll_nil (cap : Nat) (q : List Byte) : boundedPushAll cap [] q = q := rfl

@[simp] theorem boundedPushAll_cons (cap : Nat) (b : Byte) (bs q : List Byte) :
    boundedPushAll cap (b :: bs) q = boundedPushAll cap bs (boundedPush cap b q) := rfl

theorem boundedPushAll_append (cap : Nat) (bs ds q : List Byte) :
    boundedPushAll cap (bs ++ ds) q = boundedPushAll cap ds (boundedPushAll cap bs q) := List.foldl_append

/-- R175: a producer's push is that of its byte, or of none. -/
theorem boundedUnit_eq_boundedPushAll (cap : Nat) (b : Byte) (q : List Byte) :
    boundedUnit cap b q = boundedPushAll cap (if b = 0#8 then [] else [b]) q := by
  unfold boundedUnit
  split <;> rfl

/-- R178: pushes that all find room lose nothing. -/
theorem boundedPushAll_of_room {cap : Nat} {bs q : List Byte} (h : q.length + bs.length ≤ cap) :
    boundedPushAll cap bs q = q ++ bs := by
  induction bs generalizing q with
  | nil => simp
  | cons b bs ih =>
    rw [List.length_cons] at h
    have hpush : boundedPush cap b q = q ++ [b] := if_neg (by omega)
    rw [boundedPushAll_cons, hpush, ih (by simp; omega), List.append_assoc, List.singleton_append]

/-- R179: a push on the most recent `cap` bytes leaves the most recent `cap`. -/
theorem boundedPush_rtake {cap : Nat} (hc : 0 < cap) (b : Byte) (l : List Byte) :
    boundedPush cap b (l.rtake cap) = (l ++ [b]).rtake cap := by
  simp only [boundedPush, List.rtake, List.length_drop, List.length_append, List.length_singleton, List.tail_drop]
  split
  case isTrue hfull =>
    rw [List.drop_append_of_le_length (by omega)]
    congr 2
    omega
  case isFalse hroom =>
    rw [List.drop_append_of_le_length (by omega)]
    congr 2
    omega

/-- R179: any number of pushes keep the most recent `cap` bytes. -/
theorem boundedPushAll_rtake {cap : Nat} (hc : 0 < cap) (bs l : List Byte) :
    boundedPushAll cap bs (l.rtake cap) = (l ++ bs).rtake cap := by
  induction bs generalizing l with
  | nil => rw [boundedPushAll_nil, List.append_nil]
  | cons b bs ih => rw [boundedPushAll_cons, boundedPush_rtake hc, ih, List.append_assoc, List.singleton_append]

/-! ### A sequence by its first command -/

/-- R132, R140: the modifier state after one command. -/
def modAfter (c : Config) (m : ModBits) : Instr → ModBits
  | .kbdIn code => (kdec c code m).mod
  | _ => m

section Cons

variable {c : Config} {m : ModBits} {i : Instr}

/-- R142: a sequence is without the reset request when its first command and the rest are. -/
theorem noResetRequest_cons (is : List Instr) :
    noResetRequest c m (i :: is) = (noResetRequest c m [i] && noResetRequest c (modAfter c m i) is) := by
  cases i <;> simp [noResetRequest, modAfter]

/-- R140, R173: a sequence pushes what its first command pushes and then what the rest pushes. -/
theorem pushedBytes_cons (is : List Instr) (h : noResetRequest c m [i] = true) :
    pushedBytes c m (i :: is) = pushedBytes c m [i] ++ pushedBytes c (modAfter c m i) is := by
  cases i with
  | kbdIn code =>
    have hrst : (kdec c code m).rst = false := by simpa [noResetRequest] using h
    simp [pushedBytes, modAfter, hrst]
  | _ => simp [pushedBytes, modAfter]

/-- R178: where no push finds the ring full, a first command other than `POP` has room for what it pushes. -/
theorem room_of_neverOverflows {n : Nat} {is : List Instr} (h : neverOverflows c m n (i :: is) = true) (hi : i ≠ .pop) :
    noResetRequest c m [i] = true ∧ (n ≤ c.cap → n + (pushedBytes c m [i]).length ≤ c.cap) ∧
      neverOverflows c (modAfter c m i) (n + (pushedBytes c m [i]).length) is = true := by
  cases i with
  | kbdIn code =>
    cases hrst : (kdec c code m).rst with
    | true => simp [neverOverflows, hrst] at h
    | false =>
      by_cases hchar : (kdec c code m).char = 0#8
      · simpa [neverOverflows, noResetRequest, pushedBytes, modAfter, hrst, hchar] using h
      · have hroom : n < c.cap ∧ neverOverflows c (kdec c code m).mod (n + 1) is = true := by
          simpa [neverOverflows, hrst, hchar] using h
        simpa [noResetRequest, pushedBytes, modAfter, hrst, hchar] using ⟨fun _ => hroom.1, hroom.2⟩
  | serIn b =>
    by_cases hb : b = 0#8
    · simpa [neverOverflows, noResetRequest, pushedBytes, modAfter, hb] using h
    · have hroom : n < c.cap ∧ neverOverflows c m (n + 1) is = true := by simpa [neverOverflows, hb] using h
      simpa [noResetRequest, pushedBytes, modAfter, hb] using ⟨fun _ => hroom.1, hroom.2⟩
  | pop => exact absurd rfl hi
  | irqEnable irq => simpa [neverOverflows, noResetRequest, pushedBytes, modAfter] using h
  | picInit base => simpa [neverOverflows, noResetRequest, pushedBytes, modAfter] using h

/-- R89: what a `POP` at the head of a sequence returns is read from its response. -/
theorem poppedBytes_pop_cons (v : Option Byte) (is : List Instr) (rs : List Word) :
    poppedBytes (.pop :: is) (popResponse v :: rs) = v.toList ++ poppedBytes is rs := by
  cases v with
  | none => simp [poppedBytes, popResponse]
  | some b =>
    obtain ⟨-, hvalid, hdata⟩ := response_fields true b
    simp [poppedBytes, popResponse, hvalid, hdata]

theorem poppedBytes_cons_of_ne_pop (r : Word) (is : List Instr) (rs : List Word) (hi : i ≠ .pop) :
    poppedBytes (i :: is) (r :: rs) = poppedBytes is rs := by
  cases i with
  | pop => exact absurd rfl hi
  | _ => rfl

end Cons

/-! ### One command at the console -/

section ConsoleCommand

variable {c : Config} {i : Instr} {k : Console}

/-- R174: `POP` takes the head of the queue. -/
theorem Console.step_pop (c : Config) (k : Console) : Console.step c .pop k = (some (popResponse k.q.head?), { k with q := k.q.tail }) := by
  obtain ⟨m, q⟩ := k
  cases q <;> rfl

/-- R175: any other command that does not raise the reset request pushes what it pushes. -/
theorem Console.step_of_ne_pop (hi : i ≠ .pop) (h : noResetRequest c k.mod [i] = true) :
    ∃ r, Console.step c i k = (some r, { mod := modAfter c k.mod i, q := boundedPushAll c.cap (pushedBytes c k.mod [i]) k.q }) := by
  cases i with
  | kbdIn code =>
    have hrst : (kdec c code k.mod).rst = false := by simpa [noResetRequest] using h
    have hpushed : pushedBytes c k.mod [.kbdIn code] = if (kdec c code k.mod).char = 0#8 then [] else [(kdec c code k.mod).char] := by
      simp [pushedBytes, hrst]
    rw [Console.step_kbdIn_no_rst hrst, boundedUnit_eq_boundedPushAll, hpushed]
    exact ⟨_, rfl⟩
  | serIn b =>
    have hpushed : pushedBytes c k.mod [.serIn b] = if b = 0#8 then [] else [b] := List.append_nil _
    rw [hpushed, ← boundedUnit_eq_boundedPushAll]
    exact ⟨_, rfl⟩
  | pop => exact absurd rfl hi
  | irqEnable irq => exact ⟨_, rfl⟩
  | picInit base => exact ⟨_, rfl⟩

/-- R145: a command that raises the reset request has no response. -/
theorem Console.step_of_resetRequest (h : noResetRequest c k.mod [i] = false) : ∃ k', Console.step c i k = (none, k') := by
  cases i with
  | kbdIn code => exact ⟨_, Console.step_kbdIn_rst (by simpa [noResetRequest] using h)⟩
  | _ => cases h

/-- R88: any other command has a response, and leaves its modifier state. -/
theorem Console.step_of_noResetRequest (h : noResetRequest c k.mod [i] = true) :
    ∃ r q, Console.step c i k = (some r, { mod := modAfter c k.mod i, q := q }) := by
  by_cases hi : i = .pop
  · subst hi
    exact ⟨_, _, Console.step_pop c k⟩
  · obtain ⟨r, hr⟩ := Console.step_of_ne_pop hi h
    exact ⟨r, _, hr⟩

end ConsoleCommand

/-! ### Sequences at the console -/

/-- R231: a sequence at the console answers exactly when no command raises the reset request. -/
theorem Console.issue_isSome (c : Config) (cs : List Instr) (k : Console) :
    (Console.issue c cs k).1.isSome = noResetRequest c k.mod cs := by
  induction cs generalizing k with
  | nil => rfl
  | cons i is ih =>
    rw [noResetRequest_cons]
    cases hreset : noResetRequest c k.mod [i] with
    | true =>
      obtain ⟨r, q, hstep⟩ := Console.step_of_noResetRequest hreset
      rw [Console.issue_cons_some is hstep, Option.isSome_map, ih, Bool.true_and]
    | false =>
      obtain ⟨k', hstep⟩ := Console.step_of_resetRequest hreset
      rw [Console.issue_cons_none is hstep]
      rfl

/-- R178: where no push finds the queue full, the bytes popped and then those left are those held at first and then those pushed. -/
theorem Console.issue_of_neverOverflows {c : Config} {cs : List Instr} {k : Console} (hk : k.q.length ≤ c.cap)
    (h : neverOverflows c k.mod k.q.length cs = true) :
    ∃ rs k', Console.issue c cs k = (some rs, k') ∧ poppedBytes cs rs ++ k'.q = k.q ++ pushedBytes c k.mod cs := by
  induction cs generalizing k with
  | nil => exact ⟨[], k, rfl, (List.append_nil _).symm⟩
  | cons i is ih =>
    by_cases hi : i = .pop
    · subst hi
      have htail : neverOverflows c k.mod k.q.tail.length is = true := by rw [List.length_tail]; exact h
      obtain ⟨rs, k', hissue, heq⟩ := ih (k := { k with q := k.q.tail }) (by simp; omega) htail
      refine ⟨popResponse k.q.head? :: rs, k', by rw [Console.issue_cons_some is (Console.step_pop c k), hissue]; rfl, ?_⟩
      rw [poppedBytes_pop_cons, List.append_assoc, heq, ← List.append_assoc]
      congr 1
      cases k.q <;> rfl
    · obtain ⟨hreset, hroom, hrest⟩ := room_of_neverOverflows h hi
      obtain ⟨r, hstep⟩ := Console.step_of_ne_pop hi hreset
      rw [boundedPushAll_of_room (hroom hk)] at hstep
      rw [← List.length_append] at hroom hrest
      obtain ⟨rs, k', hissue, heq⟩ := ih (k := ⟨modAfter c k.mod i, k.q ++ pushedBytes c k.mod [i]⟩) (hroom hk) hrest
      refine ⟨r :: rs, k', by rw [Console.issue_cons_some is hstep, hissue]; rfl, ?_⟩
      rw [poppedBytes_cons_of_ne_pop _ _ _ hi, heq, pushedBytes_cons is hreset, List.append_assoc]

/-- R179: a sequence without a `POP` leaves the queue after its pushes. -/
theorem Console.issue_of_pop_not_mem {c : Config} {cs : List Instr} {k : Console} (hpop : Instr.pop ∉ cs)
    (h : noResetRequest c k.mod cs = true) :
    ∃ rs k', Console.issue c cs k = (some rs, k') ∧ k'.q = boundedPushAll c.cap (pushedBytes c k.mod cs) k.q := by
  induction cs generalizing k with
  | nil => exact ⟨[], k, rfl, rfl⟩
  | cons i is ih =>
    obtain ⟨hi, his⟩ := List.ne_and_not_mem_of_not_mem_cons hpop
    rw [noResetRequest_cons, Bool.and_eq_true] at h
    obtain ⟨hreset, hrest⟩ := h
    obtain ⟨r, hstep⟩ := Console.step_of_ne_pop hi.symm hreset
    obtain ⟨rs, k', hissue, hq⟩ := ih (k := ⟨modAfter c k.mod i, boundedPushAll c.cap (pushedBytes c k.mod [i]) k.q⟩) his hrest
    refine ⟨r :: rs, k', by rw [Console.issue_cons_some is hstep, hissue]; rfl, ?_⟩
    rw [hq, pushedBytes_cons is hreset, boundedPushAll_append]

/-- R174, R179: as many `POP`s as there are bytes, or more, return them in order and then none. -/
theorem Console.issue_replicate_pop (c : Config) {n : Nat} {k : Console} (h : k.q.length ≤ n) :
    ∃ k', Console.issue c (List.replicate n .pop) k =
      (some (k.q.map (response true) ++ List.replicate (n - k.q.length) 0x0000#16), k') := by
  induction n generalizing k with
  | zero =>
    have hq : k.q = [] := List.length_eq_zero_iff.mp (Nat.le_zero.mp h)
    exact ⟨k, by rw [hq]; rfl⟩
  | succ n ih =>
    obtain ⟨k', hissue⟩ := ih (k := { k with q := k.q.tail }) (by simp; omega)
    refine ⟨k', ?_⟩
    rw [List.replicate_succ, Console.issue_cons_some _ (Console.step_pop c k), hissue]
    obtain ⟨m, q⟩ := k
    cases q with
    | nil => rfl
    | cons b q => simp [popResponse]

/-! ### From the console to the machine (R34, R183) -/

section Machine

variable {cs : List Instr} {s : State}

/-- A sequence that runs to its end keeps the ring's invariant and the parameters, and the block running. -/
theorem issue_done_ringInv {rs : List Word} {t : State} (h : issue cs s = .done rs t) (hs : RingInv s) (hh : s.halt = false) :
    RingInv t ∧ t.halt = false ∧ t.cfg = s.cfg := by
  induction cs generalizing s rs with
  | nil => cases h; exact ⟨hs, hh, rfl⟩
  | cons i is ih =>
    obtain ⟨u, rs', hrun, hhalt, htail, -⟩ := issue_cons_done h
    obtain ⟨-, j, -, hexec⟩ := runWord_next hrun
    have heffect := exec_effect hexec
    rw [← heffect.cfg_eq]
    exact ih htail (heffect.ringInv hs) hhalt

/-- R88: a sequence that runs to its end has one response for each command. -/
theorem issue_done_length {rs : List Word} {t : State} (h : issue cs s = .done rs t) : rs.length = cs.length := by
  induction cs generalizing s rs with
  | nil => cases h; rfl
  | cons i is ih =>
    obtain ⟨u, rs', -, -, htail, rfl⟩ := issue_cons_done h
    rw [List.length_cons, ih htail, List.length_cons]

/-- A sequence that the console answers runs to its end, with the console's responses and byte sequence. -/
theorem issue_done_of_console {rs : List Word} {k : Console} (hs : RingInv s) (hh : s.halt = false)
    (h : Console.issue s.cfg cs s.console = (some rs, k)) : ∃ t, issue cs s = .done rs t ∧ queue t = k.q := by
  have hseen := issue_seen cs hs hh
  rw [h] at hseen
  cases hissue : issue cs s with
  | done rs' t =>
    simp only [hissue, RunEnd.seen, Option.some.injEq, Prod.mk.injEq] at hseen
    obtain ⟨rfl, rfl⟩ := hseen
    exact ⟨t, rfl, rfl⟩
  | resetRequest t => simp [hissue, RunEnd.seen] at hseen
  | refused r => simp [hissue, RunEnd.seen] at hseen
  | fault f => simp [hissue, RunEnd.seen] at hseen

/-- R142, R231: a sequence without the reset request runs to its end. -/
theorem issue_done_of_noResetRequest (hs : RingInv s) (hh : s.halt = false) (h : noResetRequest s.cfg s.mod cs = true) :
    ∃ rs t, issue cs s = .done rs t := by
  obtain ⟨rs, hrs⟩ := Option.isSome_iff_exists.mp ((Console.issue_isSome s.cfg cs s.console).trans h)
  obtain ⟨t, ht, -⟩ := issue_done_of_console hs hh (Prod.ext hrs rfl)
  exact ⟨rs, t, ht⟩

/-- R142, R231: any other sequence ends at the reset request. -/
theorem issue_resetRequest_of_not_noResetRequest (hs : RingInv s) (hh : s.halt = false) (h : noResetRequest s.cfg s.mod cs = false) :
    ∃ t, issue cs s = .resetRequest t := by
  have hnone : (Console.issue s.cfg cs s.console).1 = none :=
    Option.isSome_eq_false_iff.trans Option.isNone_iff_eq_none |>.mp ((Console.issue_isSome s.cfg cs s.console).trans h)
  have hseen := issue_seen cs hs hh
  cases hissue : issue cs s with
  | done rs t =>
    rw [hissue, RunEnd.seen, Option.some.injEq] at hseen
    rw [← hseen] at hnone
    cases hnone
  | resetRequest t => exact ⟨t, rfl⟩
  | refused r => simp [hissue, RunEnd.seen] at hseen
  | fault f => simp [hissue, RunEnd.seen] at hseen

end Machine

end Sys2Proof.Machine
end

section
/-! PROOFS. The statements of the input FIFO family (spec 42_input_fifo). -/

namespace Sys2Proof.Machine

/-! ### Refinement of the bounded queue -/

/-- Settles O33: a push acts on `Q` as on a bounded queue, and a pop takes its head. -/
theorem ringPrimitivesRefineABoundedQueue : Obligations.RingPrimitivesRefineABoundedQueue := by
  rintro s ⟨hc, ⟨-, hr⟩, ⟨hm, -⟩, -⟩
  refine ⟨fun b => ⟨_, ringPush_eq b hc, queue_pushed b hc hm⟩, fun hq => ?_, fun h q hq => ?_⟩
  · exact ⟨s, ringPop_empty ((queue_eq_nil_iff hc).mp hq), hq⟩
  · have hf : fill s ≠ 0 := fun hf => by simp [(queue_eq_nil_iff hc).mpr hf] at hq
    obtain ⟨rfl, rfl⟩ := List.cons.inj (hq.symm.trans (queue_eq_cons_popped hc hr hf))
    exact ⟨_, ringPop_some hc hf, rfl⟩

/-- Settles O35: the bytes popped and then those left in `Q` are the bytes pushed, so a further `POP` finds none exactly when `Q` is empty. -/
theorem fifoOrderWithoutOverflow : Obligations.FifoOrderWithoutOverflow := by
  intro cs s hs hhalt hempty hnever
  have hq : s.console.q = [] := hempty
  obtain ⟨rs, k, hissue, heq⟩ := Console.issue_of_neverOverflows (k := s.console) (by rw [hq]; exact Nat.zero_le _)
    (by rw [hq]; exact hnever)
  obtain ⟨t, hdone, hqueue⟩ := issue_done_of_console hs hhalt hissue
  have hpushed : poppedBytes cs rs ++ queue t = pushedBytes s.cfg s.mod cs := by
    rw [hqueue, heq, hq]
    rfl
  obtain ⟨ht, -, -⟩ := issue_done_ringInv hdone hs hhalt
  obtain ⟨u, hpop, -, hresp, -⟩ := exec_pop_of_ringInv ht
  refine ⟨rs, t, u, hdone, ⟨queue t, hpushed⟩, hpop, ?_⟩
  rw [hresp, popResponse_eq_zero_iff, List.head?_eq_none_iff, ← hpushed, List.self_eq_append_right]

/-- Settles O36: the pushes leave the most recent `CAP` bytes in `Q`, and the pops empty it from its head. -/
theorem overwriteKeepsTheMostRecentBytes : Obligations.OverwriteKeepsTheMostRecentBytes := by
  rintro cs bs s hs hhalt hempty hpop hreset rfl
  obtain ⟨rs, k, hissue, hk⟩ := Console.issue_of_pop_not_mem (k := s.console) hpop hreset
  obtain ⟨t, hdone, hqueue⟩ := issue_done_of_console hs hhalt hissue
  obtain ⟨ht, hthalt, hcfg⟩ := issue_done_ringInv hdone hs hhalt
  have hrecent : queue t = (pushedBytes s.cfg s.mod cs).rtake s.cfg.cap := by
    rw [hqueue, hk, show s.console.q = [].rtake s.cfg.cap from hempty.trans (List.rtake_nil _).symm, boundedPushAll_rtake hs.1]
    rfl
  have hlength : (queue t).length = min (pushedBytes s.cfg s.mod cs).length s.cfg.cap := by
    rw [hrecent, List.rtake, List.length_drop]
    omega
  obtain ⟨k', hpops⟩ := Console.issue_replicate_pop t.cfg (n := s.cfg.cap + 1) (k := t.console)
    (show (queue t).length ≤ _ by omega)
  obtain ⟨u, hdone', -⟩ := issue_done_of_console ht hthalt hpops
  refine ⟨_, u, by rw [issue_append _ hdone, hdone', mapAnswer_done], ?_⟩
  rw [List.drop_left' (issue_done_length hdone), show t.console.q = queue t from rfl, hlength, hrecent]
  rfl

/-! ### `SER_IN` and `POP` -/

/-- Settles O28, by the two effects of `SER_IN`, with `WPTR` as R171 writes it. -/
theorem serInPushesTheByte : Obligations.SerInPushesTheByte := by
  intro s b hc
  refine ⟨?_, fun hb => ?_⟩
  · rintro rfl
    exact ExecEffect.serialZero.exec_eq
  · rw [← pushedPtr_eq_ite hc, ← producerResponse_of_ne hb]
    exact (ExecEffect.serialByte b hb (slot_lt _ hc)).exec_eq

/-- Settles O29, by the two effects of `SER_IN`; the push stores only at the slot of `WPTR`. -/
theorem serInFrame : Obligations.SerInFrame := by
  intro s t b hexec
  cases exec_effect hexec with
  | serialZero =>
    exact ⟨rfl, rfl, rfl, rfl, rfl, rfl, rfl, rfl, rfl, rfl, fun _ _ => rfl, absurd rfl, fun _ => ⟨rfl, fun _ => rfl⟩⟩
  | serialByte _ hb _ =>
    exact ⟨rfl, rfl, rfl, rfl, rfl, rfl, rfl, rfl, rfl, rfl, fun _ ha => Memory.read_write_other ha,
      fun _ => Memory.read_write_of_ne hb, fun h => absurd h hb⟩

/-- Settles O30, by the two effects of `POP`, with the pointer of the oldest byte as R172 writes it. -/
theorem popTakesTheOldestByte : Obligations.PopTakesTheOldestByte := by
  rintro s f r hc rfl rfl
  rw [← oldestPtr_eq_ite hc, ← fill_coe hc]
  refine ⟨fun hf => (ExecEffect.popEmpty (by omega)).exec_eq, fun hf => ?_⟩
  rw [← wrap_natCast]
  exact (ExecEffect.popByte (by omega) (slot_lt _ hc)).exec_eq

/-- Settles O31, by the two effects of `POP`; only a ring that holds a byte moves `RPTR`. -/
theorem popFrame : Obligations.PopFrame := by
  intro s t hexec
  cases exec_effect hexec with
  | popEmpty => exact ⟨rfl, rfl, rfl, rfl, rfl, rfl, rfl, rfl, rfl, rfl, fun _ => rfl, fun _ => rfl⟩
  | popByte hf hslot =>
    exact ⟨rfl, rfl, rfl, rfl, rfl, rfl, rfl, rfl, rfl, rfl, fun _ => rfl,
      fun hq => absurd ((queue_eq_nil_iff (Nat.zero_lt_of_lt hslot)).mp hq) hf⟩

/-- Settles O32, by what each primitive answers when it succeeds. -/
theorem eachPointerHasOneWriter : Obligations.EachPointerHasOneWriter := by
  refine ⟨fun b s t h => ?_, fun v s t h => ?_⟩
  · obtain ⟨-, rfl⟩ := ringPush_ok h
    rfl
  · obtain rfl | rfl := ringPop_ok h
    · rfl
    · rfl

/-! ### `GET_CHAR` (R176, R177) -/

theorem commandsOf_append (as bs : List HostAction) : commandsOf (as ++ bs) = commandsOf as ++ commandsOf bs := List.filterMap_append

/-- R176: the serial drain issues a `SER_IN` for each byte before the first "no data ready". -/
theorem commandsOf_drainSerPort (ser : List (Bool × Byte)) :
    commandsOf (drainSerPort ser) = (ser.takeWhile fun x => x.1).map fun x => Instr.serIn x.2 := by
  induction ser with
  | nil => rfl
  | cons x rest ih =>
    obtain ⟨ready, data⟩ := x
    cases ready with
    | false => rfl
    | true =>
      have hcons : commandsOf (drainSerPort ((true, data) :: rest)) = .serIn data :: commandsOf (drainSerPort rest) := rfl
      rw [hcons, ih, List.takeWhile_cons_of_pos rfl, List.map_cons]

/-- R176: the keyboard drain issues a `KBD_IN` for each byte before the first "output buffer empty". -/
theorem commandsOf_drainKbd (c : Config) (kbd : List (Byte × Byte)) :
    commandsOf (drainKbd c kbd) = (kbd.takeWhile fun x => x.1.getLsbD c.kbcFullBit).map fun x => Instr.kbdIn x.2 := by
  induction kbd with
  | nil => rfl
  | cons x rest ih =>
    obtain ⟨status, data⟩ := x
    cases hfull : status.getLsbD c.kbcFullBit with
    | false => simp [drainKbd, commandsOf, hfull]
    | true =>
      have hcons : commandsOf (drainKbd c ((status, data) :: rest)) = .kbdIn data :: commandsOf (drainKbd c rest) := by
        simp [drainKbd, commandsOf, hfull]
      rw [hcons, ih, List.takeWhile_cons_of_pos (p := fun x : Byte × Byte => x.1.getLsbD c.kbcFullBit) hfull, List.map_cons]

/-- R177: the commands of `GET_CHAR` are those of its drains and then one `POP`. -/
theorem commandsOf_getChar (c : Config) (portPresent : Bool) (ser : List (Bool × Byte)) (kbd : List (Byte × Byte)) :
    commandsOf (getChar c portPresent ser kbd) = commandsOf (drainSer portPresent ser ++ drainKbd c kbd) ++ [.pop] :=
  commandsOf_append _ _

/-- Settles O55, drain by drain. -/
theorem getCharDrainsSerialThenKeyboardThenPops : Obligations.GetCharDrainsSerialThenKeyboardThenPops := by
  intro c ser kbd
  simp only [commandsOf_getChar, commandsOf_append, commandsOf_drainKbd]
  exact ⟨by rw [← commandsOf_drainSerPort]; rfl, rfl⟩

/-- Settles O56: after the drains the `POP` takes the head of `Q`; a reset request ends the run before it. -/
theorem getCharReturnsTheOldestByte : Obligations.GetCharReturnsTheOldestByte := by
  rintro portPresent ser kbd drains s hs hhalt rfl
  refine ⟨fun hreset => ?_, fun hreset => ?_⟩
  · obtain ⟨rs, u, hdone⟩ := issue_done_of_noResetRequest hs hhalt hreset
    obtain ⟨hu, huhalt, -⟩ := issue_done_ringInv hdone hs hhalt
    obtain ⟨t, hpop, hthalt, hresp, hqueue⟩ := exec_pop_of_ringInv hu
    have hrun := (runWord_command huhalt (decode_encode .pop)).trans hpop
    have hchar : lowByte t.resp = (queue u).headD 0x00#8 := by
      rw [hresp, lowByte_popResponse, List.headD_eq_head?_getD]
    refine ⟨rs, u, t, hdone, ?_, hqueue⟩
    rw [getCharRun, commandsOf_getChar, issue_append _ hdone, issue_cons_next hrun (hthalt.trans huhalt), ← hchar]
    rfl
  · obtain ⟨u, hend⟩ := issue_resetRequest_of_not_noResetRequest hs hhalt hreset
    refine ⟨u, hend, ?_⟩
    rw [getCharRun, commandsOf_getChar, issue_append_resetRequest _ hend]

end Sys2Proof.Machine
end

section
/-! PROOFS. The command port's refusals (spec 60_exceptions R200, R201, R203), and what commands and whole runs leave of the two controllers' programming (R206, R207). -/

namespace Sys2Proof.Machine

/-! ### The outcomes of a word and of a step (R200, R201, R203) -/

/-- R70: a word at the head of the stream goes to the command port. -/
theorem step_word {s : State} {w : Word} {rest : List HostInput} (h : s.port = .command w :: rest) :
    step s = runWord w { s with port := rest } := by
  simp only [step, takeNext, h, takeInput]

/-- R28, R203: while `HALT` is 1 any word is refused as halted. -/
theorem runWord_halted (w : Word) {s : State} (h : s.halt = true) : runWord w s = .refused (.halted w) := by
  simp [runWord, h]

/-- R85, R203: while `HALT` is 0 a reserved word is refused as reserved. -/
theorem runWord_reserved {w : Word} {why : ReservedWhy} {s : State} (hh : s.halt = false) (hd : decode w = .reserved why) :
    runWord w s = .refused (.reserved w why) := by
  simp [runWord, hh, hd]

/-- R200, R201: with a legal capacity a word leads to a next state, or is refused as halted or as reserved. -/
theorem runWord_outcomes (w : Word) {s : State} (hc : 0 < s.cfg.cap) :
    (∃ t, runWord w s = .next t) ∨ ∃ r, runWord w s = .refused r ∧
      ((s.halt = true ∧ r = .halted w) ∨ (s.halt = false ∧ ∃ why, decode w = .reserved why ∧ r = .reserved w why)) := by
  cases hh : s.halt with
  | true => exact .inr ⟨_, runWord_halted w hh, .inl ⟨rfl, rfl⟩⟩
  | false =>
    cases hd : decode w with
    | command i =>
      obtain ⟨t, ht⟩ := exec_total i hc
      exact .inl ⟨t, (runWord_command hh hd).trans ht⟩
    | reserved why => exact .inr ⟨_, runWord_reserved hh hd, .inr ⟨rfl, why, rfl, rfl⟩⟩

/-- R200: a step answers a next state or, for a word at the head of the stream, one of the two refusals of R201. -/
theorem step_outcomes {s : State} (hc : 0 < s.cfg.cap) :
    (∃ t, step s = .next t) ∨ ∃ r, step s = .refused r ∧ ∃ w rest, s.port = .command w :: rest ∧
      ((s.halt = true ∧ r = .halted w) ∨ (s.halt = false ∧ ∃ why, decode w = .reserved why ∧ r = .reserved w why)) := by
  cases hport : s.port with
  | nil => exact .inl ⟨s, by simp only [step, takeNext, hport]⟩
  | cons x rest =>
    cases x with
    | command w =>
      rw [step_word hport]
      exact (runWord_outcomes w (s := { s with port := rest }) hc).imp_right fun ⟨r, hrun, hwhy⟩ => ⟨r, hrun, w, rest, rfl, hwhy⟩
    | together pop ser kbd => exact .inl ⟨_, step_together hport⟩
    | reset => exact .inl ⟨hardwareReset { s with port := rest }, by simp only [step, takeNext, hport, takeInput]⟩
    | powerOn => exact .inl ⟨powerCycle { s with port := rest }, by simp only [step, takeNext, hport, takeInput]⟩

/-! ### The controllers' programming under one command (R206, R207) -/

section Effect

variable {i : Instr} {s t : State}

/-- R105, R207: `PIC_INIT` programs each controller, whatever it was before. -/
theorem ExecEffect.pic_picInit {base : Byte} (h : ExecEffect s (.picInit base) t) (hc : s.cfg.picOk = true) (u : PicUnit) :
    t.pic u = { phase := .ready, icw1 := s.cfg.icw1, vecBase := unitBase base u, imr := maskByte s.imask u } :=
  (h.pic_eq u).trans (foldl_picTake_picSequence hc base s.imask u _)

/-- R207: any other command changes at most the mask register of a ready controller. -/
theorem ExecEffect.pic_of_ready (h : ExecEffect s i t) (hc : s.cfg.picOk = true) (hi : ∀ base, i ≠ .picInit base) {u : PicUnit}
    (hready : (s.pic u).phase = .ready) : ∃ imr, t.pic u = { s.pic u with imr := imr } := by
  rw [h.pic_eq]
  cases i with
  | kbdIn code =>
    rw [emittedWrites]
    split
    · exact ⟨_, picTake_resetPort hc u _ _⟩
    · exact ⟨_, rfl⟩
  | irqEnable irq =>
    rw [emittedWrites]
    split
    · exact ⟨_, foldl_picTake_maskWrite hc _ u hready⟩
    · exact ⟨_, rfl⟩
  | picInit base => exact absurd rfl (hi base)
  | serIn b => exact ⟨_, rfl⟩
  | pop => exact ⟨_, rfl⟩

/-- R206: so it keeps the controller ready, with its vector base. -/
theorem ExecEffect.ready_vecBase_kept (h : ExecEffect s i t) (hc : s.cfg.picOk = true) (hi : ∀ base, i ≠ .picInit base) {u : PicUnit}
    (hready : (s.pic u).phase = .ready) : (t.pic u).phase = .ready ∧ (t.pic u).vecBase = (s.pic u).vecBase := by
  obtain ⟨imr, hpic⟩ := h.pic_of_ready hc hi hready
  rw [hpic]
  exact ⟨hready, rfl⟩

end Effect

/-! ### Controllers programmed with a base, along a run (R206) -/

/-- Both controllers are ready with the vector bases of `PIC_INIT base` (R107), and the ports and programming bytes are legal. -/
def ProgrammedWith (base : Byte) (s : State) : Prop :=
  s.cfg.picOk = true ∧ ∀ u, (s.pic u).phase = .ready ∧ (s.pic u).vecBase = unitBase base u

theorem ExecEffect.programmedWith_picInit {base : Byte} {s t : State} (h : ExecEffect s (.picInit base) t) (hc : s.cfg.picOk = true) :
    ProgrammedWith base t :=
  ⟨h.cfg_eq ▸ hc, fun u => by rw [h.pic_picInit hc]; exact ⟨rfl, rfl⟩⟩

theorem ExecEffect.programmedWith_kept {base : Byte} {i : Instr} {s t : State} (h : ExecEffect s i t) (hi : ∀ b, i ≠ .picInit b)
    (hs : ProgrammedWith base s) : ProgrammedWith base t := by
  obtain ⟨hc, hunits⟩ := hs
  refine ⟨h.cfg_eq ▸ hc, fun u => ?_⟩
  obtain ⟨hready, hbase⟩ := hunits u
  obtain ⟨hready', hbase'⟩ := h.ready_vecBase_kept hc hi hready
  exact ⟨hready', hbase'.trans hbase⟩

/-- R107: adding 8 to a base and clearing its bits 2..0 commute. -/
theorem slaveBase_and_f8 : ∀ base : Byte, slaveBase base &&& 0xF8#8 = slaveBase (base &&& 0xF8#8) := by decide

/-- R206: controllers programmed with a base deliver its vectors. -/
theorem ProgrammedWith.vector_eq {base : Byte} {s : State} (h : ProgrammedWith base s) {n : Nat} (hn : n < 16) :
    s.vector n = vectorOf base n := by
  obtain ⟨-, hunits⟩ := h
  obtain ⟨-, hbase⟩ := hunits (lineUnit n)
  rw [State.vector, hbase, vectorOf, lineUnit]
  split
  case isTrue hlow => rw [Nat.mod_eq_of_lt hlow, unitBase]
  case isFalse hhigh => rw [show n % 8 = n - 8 by omega, unitBase, slaveBase_and_f8]

/-- A sequence of commands from `s` ends in `t`: it runs to its end, or ends at the reset request (R231). -/
def EndsIn (cs : List Instr) (s t : State) : Prop := (∃ rs, issue cs s = .done rs t) ∨ issue cs s = .resetRequest t

/-- R70: a sequence that ends in a state runs its first command, and ends there or as the rest does. -/
theorem EndsIn.cons {i : Instr} {is : List Instr} {s t : State} (h : EndsIn (i :: is) s t) :
    ∃ u, ExecEffect s i u ∧ (t = u ∨ EndsIn is u t) := by
  have heffect {u : State} (hrun : runWord (encode i) s = .next u) : ExecEffect s i u := by
    obtain ⟨-, j, hdecode, hexec⟩ := runWord_next hrun
    obtain rfl : i = j := Decoded.command.inj ((decode_encode i).symm.trans hdecode)
    exact exec_effect hexec
  obtain ⟨rs, hdone⟩ | hreset := h
  · obtain ⟨u, rs', hrun, -, htail, -⟩ := issue_cons_done hdone
    exact ⟨u, heffect hrun, .inr (.inl ⟨rs', htail⟩)⟩
  · obtain ⟨u, hrun, ⟨-, rfl⟩ | ⟨-, htail⟩⟩ := issue_cons_resetRequest hreset
    · exact ⟨t, heffect hrun, .inl rfl⟩
    · exact ⟨u, heffect hrun, .inr (.inr htail)⟩

/-- What every command of a sequence keeps holds at either end of its run. -/
theorem EndsIn.invariant {P : State → Prop} {cs : List Instr} {s t : State} (h : EndsIn cs s t)
    (hkeep : ∀ i ∈ cs, ∀ {s t}, ExecEffect s i t → P s → P t) (hs : P s) : P t := by
  induction cs generalizing s with
  | nil =>
    obtain ⟨rs, hdone⟩ | hreset := h
    · cases hdone; exact hs
    · cases hreset
  | cons i is ih =>
    obtain ⟨u, heffect, hend⟩ := h.cons
    have hu : P u := hkeep i List.mem_cons_self heffect hs
    obtain rfl | htail := hend
    · exact hu
    · exact ih htail (fun j hj => hkeep j (List.mem_cons_of_mem i hj)) hu

end Sys2Proof.Machine
end

section
/-! PROOFS. The statements of the exceptions family (spec 60_exceptions). -/

namespace Sys2Proof.Machine

/-- Settles O9: the port tests `HALT` before it decodes. -/
theorem refusalsAndTheirPrecedence : Obligations.RefusalsAndTheirPrecedence := by
  intro s w rest hport
  rw [step_word hport]
  exact ⟨fun hhalt => runWord_halted w hhalt, fun hhalt _ hdecode => runWord_reserved hhalt hdecode⟩

/-- Settles O10, by the outcomes of a step. -/
theorem stepsNeverFaultAndRefuseOnlyWords : Obligations.StepsNeverFaultAndRefuseOnlyWords := by
  intro s hc
  obtain ⟨t, hstep⟩ | ⟨r, hstep, hword⟩ := step_outcomes hc
  · rw [hstep]
    exact ⟨nofun, nofun⟩
  · rw [hstep]
    refine ⟨nofun, ?_⟩
    rintro _ ⟨⟩
    exact hword

/-- Settles O11: only a slot outside the ring could stop a command, and a legal capacity has none. -/
theorem everyCommandCompletes : Obligations.EveryCommandCompletes :=
  fun i _ hc => exec_total i hc

/-- Settles O47, controller by controller. -/
theorem picInitProgramsBothControllers : Obligations.PicInitProgramsBothControllers :=
  fun _ _ _ hc hexec => ⟨(exec_effect hexec).pic_picInit hc .master, (exec_effect hexec).pic_picInit hc .slave⟩

/-- Settles O49: each mask register is a byte of `IMASK`, and the cascade bit of the master's is 0. -/
theorem unmaskedLinesReachTheProcessor : Obligations.UnmaskedLinesReachTheProcessor := by
  intro s n hagree hinit hcascade hn
  have hline : (s.pic (lineUnit n)).imr.getLsbD (n % 8) = s.imask.getLsbD n := by
    rw [(hagree hinit _).2, maskByte_lineUnit_getLsbD _ hn]
  have hopen : (s.pic .master).imr.getLsbD CASCADE = false := by
    rw [(hagree hinit _).2]
    exact (maskByte_lineUnit_getLsbD s.imask (n := CASCADE) (by decide)).trans hcascade
  simp [lineReaches, hline, hopen, hn]

/-- Settles O50: `PIC_INIT` programs the controllers with `base`, and every later command keeps that. -/
theorem vectorsFollowTheBase : Obligations.VectorsFollowTheBase := by
  intro cs base s t rs n hc hn hcs hrun
  have hend : EndsIn (.picInit base :: cs) s t := hrun.imp_left fun hdone => ⟨rs, hdone⟩
  obtain ⟨u, heffect, hrest⟩ := hend.cons
  have hu : ProgrammedWith base u := heffect.programmedWith_picInit hc
  have ht : ProgrammedWith base t := by
    obtain rfl | htail := hrest
    · exact hu
    · exact htail.invariant (fun i hi _ _ h => h.programmedWith_kept fun b hb => hcs b (hb ▸ hi)) hu
  exact ht.vector_eq hn

/-- Settles O51: commands other than `PIC_INIT` keep the controllers' programming, and arbitration and the reset input make no write. -/
theorem onlyPicInitChangesAVectorBase : Obligations.OnlyPicInitChangesAVectorBase := by
  intro s t hc hready hstep hnoInit hnoPower u
  obtain ⟨-, rfl⟩ | ⟨x, rest, hport, ⟨w, i, rfl, -, hdecode, hexec⟩ | ⟨p, b, k, -, rfl⟩ | ⟨-, rfl⟩ | ⟨rfl, -⟩⟩ := step_cases hstep
  · exact ⟨hready u, rfl⟩
  · have hi : ∀ base, i ≠ .picInit base := by
      rintro base rfl
      exact hnoInit w base rest hport hdecode
    exact (exec_effect hexec).ready_vecBase_kept hc hi (hready u)
  · exact ⟨hready u, rfl⟩
  · rw [pic_hardwareReset]
    exact ⟨hready u, rfl⟩
  · exact absurd hport (hnoPower rest)

end Sys2Proof.Machine
end

section
/-! PROOFS. The two resets as steps, the end of a run at the reset request, and the commands of the boot sequence (spec 70_reset_and_hazards R230 to R232). -/

namespace Sys2Proof.Machine

/-! ### The two resets (R230) -/

/-- R230: the reset input is a step to the reset state, whatever the block was doing. -/
theorem step_reset {s : State} {rest : List HostInput} (h : s.port = .reset :: rest) :
    step s = .next (hardwareReset { s with port := rest }) := by
  simp only [step, takeNext, h, takeInput]

/-- R230: so is a power cycle. -/
theorem step_powerOn {s : State} {rest : List HostInput} (h : s.port = .powerOn :: rest) :
    step s = .next (powerCycle { s with port := rest }) := by
  simp only [step, takeNext, h, takeInput]

/-- R31, R34: where the two pointers are equal the ring holds no byte, whatever the capacity. -/
theorem queue_eq_nil_of_rptr_eq_wptr {s : State} (h : s.rptr = s.wptr) : queue s = [] := by
  have hfill : fill s = 0 := by rw [fill, h, sub_self, wrap, Int.zero_emod, Int.toNat_zero]
  rw [queue, count, hfill, Nat.zero_min, List.range_zero, List.map_nil]

/-- R39: no write follows a power cycle, so each controller is its draw. -/
theorem pic_powerCycle (s : State) (u : PicUnit) : (powerCycle s).pic u = Config.powerOnPic (s.draw + 1) u := by
  simp [State.pic]

/-! ### The end of a run at the reset request (R231) -/

/-- R231: a run that ends at the reset request ends at its first step's, or later. -/
theorem runStream_succ_resetRequest {n : Nat} {s t : State} (h : runStream (n + 1) s = .resetRequest t) :
    ∃ u, step s = .next u ∧ ((s.halt = false ∧ u.halt = true ∧ t = u) ∨
      ((s.halt = true ∨ u.halt = false) ∧ runStream n u = .resetRequest t)) := by
  simp only [runStream] at h
  split at h
  · rename_i u hstep
    split at h
    · rename_i hfires
      obtain ⟨hs, hu⟩ := Bool.and_eq_true_iff.mp hfires
      cases h
      exact ⟨_, hstep, .inl ⟨(Bool.not_eq_true' _).mp hs, hu, rfl⟩⟩
    · rename_i hquiet
      exact ⟨u, hstep, .inr ⟨by simpa [Bool.and_eq_true, imp_iff_not_or] using hquiet, h⟩⟩
  · cases h
  · cases h

/-- R231: the state in which the reset request leaves a run is halted. -/
theorem runStream_resetRequest_halt {n : Nat} {s t : State} (h : runStream n s = .resetRequest t) : t.halt = true := by
  induction n generalizing s with
  | zero => cases h
  | succ n ih =>
    obtain ⟨u, -, ⟨-, hu, rfl⟩ | ⟨-, htail⟩⟩ := runStream_succ_resetRequest h
    · exact hu
    · exact ih htail

/-- R231: a longer run of the stream ends at the same reset request. -/
theorem runStream_resetRequest_mono {n m : Nat} {s t : State} (h : runStream n s = .resetRequest t) (hnm : n ≤ m) :
    runStream m s = .resetRequest t := by
  induction n generalizing s m with
  | zero => cases h
  | succ n ih =>
    obtain ⟨k, rfl⟩ : ∃ k, m = k + 1 := ⟨m - 1, by omega⟩
    obtain ⟨u, hstep, ⟨hs, hu, rfl⟩ | ⟨hgo, htail⟩⟩ := runStream_succ_resetRequest h
    · exact runStream_reset k hstep hs hu
    · rw [runStream_next k hstep hgo, ih htail (by omega)]

/-! ### The boot sequence (R232) -/

/-- R232: the lines that the boot sequence arms. -/
def bootLines (c : Config) (serialPresent : Bool) : List Byte := c.irqKbd :: if serialPresent then [c.irqSer] else []

/-- R232: the commands of the boot sequence after its reset, when no byte waits in the keyboard controller. -/
def bootCommands (c : Config) (serialPresent : Bool) (base : Byte) : List Instr :=
  (bootLines c serialPresent).map Instr.irqEnable ++ [.picInit base]

/-- R232: with no byte waiting, the boot sequence presents the reset input and then its commands. -/
theorem inputsOf_bootSequence (c : Config) (serialPresent : Bool) (base : Byte) :
    inputsOf (bootSequence c serialPresent [] base) = .reset :: (bootCommands c serialPresent base).map present := by
  cases serialPresent <;> rfl

/-- R111, R112: `IRQ_ENABLE`s before the first `PIC_INIT`, and then it, run to their end and leave the ring and `HALT` alone. -/
theorem issue_irqEnables_picInit (irqs : List Byte) (base : Byte) {s : State} (hhalt : s.halt = false) (hinit : s.init = false) :
    ∃ rs v o, issue (irqs.map Instr.irqEnable ++ [.picInit base]) s =
      .done rs { s with imask := v, init := true, out := o, resp := 0#16 } := by
  obtain ⟨rs, v, r, hdone⟩ := issue_irqEnables_deferred irqs hhalt hinit
  have hrun := runWord_command (s := { s with imask := v, resp := r }) hhalt (decode_encode (.picInit base))
  refine ⟨rs ++ [0#16], v, s.out ++ picSequence s.cfg base v, ?_⟩
  rw [issue_append _ hdone, issue_cons_next hrun hhalt]
  rfl

/-- R113: a line is open after its acceptance, and otherwise as it was. -/
theorem and_not_acceptedLines_getLsbD (v : Word) (cs : List Instr) (n : Nat) :
    (v &&& ~~~acceptedLines cs).getLsbD n = (v.getLsbD n && !(acceptedLines cs).getLsbD n) := by
  by_cases hn : n < 16
  · simp [hn]
  · simp [BitVec.getLsbD_of_ge v n (by omega)]

/-- R232: the boot sequence has exactly its lines accepted. -/
theorem acceptedLines_bootCommands_getLsbD {c : Config} (h : c.irqLinesOk = true) (serialPresent : Bool) (base : Byte) (n : Nat) :
    (acceptedLines (bootCommands c serialPresent base)).getLsbD n =
      (n == c.irqKbd.toNat || (serialPresent && n == c.irqSer.toNat)) := by
  simp only [Config.irqLinesOk, NIRQ, Bool.and_eq_true, decide_eq_true_eq] at h
  obtain ⟨⟨⟨hkbd, -⟩, hser⟩, -⟩ := h
  rw [Bool.eq_iff_iff, acceptedLines_getLsbD_iff]
  cases serialPresent with
  | false => simp [bootCommands, bootLines, hkbd, eq_comm (a := n)]
  | true => simp [bootCommands, bootLines, or_and_right, exists_or, hkbd, hser, eq_comm (a := n)]

end Sys2Proof.Machine
end

section
/-! PROOFS. The statements of the reset family (spec 70_reset_and_hazards). -/

namespace Sys2Proof.Machine

/-- Settles O16: the step is the hardware reset, which keeps every write ever made in the controllers' history. -/
theorem resetInputResetsTheBlockAndKeepsTheControllers : Obligations.ResetInputResetsTheBlockAndKeepsTheControllers := by
  intro s rest hport
  exact ⟨_, step_reset hport, rfl, rfl, rfl, rfl, queue_eq_nil_of_rptr_eq_wptr rfl, rfl, rfl, rfl, rfl, rfl, rfl,
    fun u => pic_hardwareReset { s with port := rest } u⟩

/-- Settles O17: the step is the power cycle, which starts the controllers' history anew from the next draw. -/
theorem powerCycleResetsTheBlockAndDrawsTheControllers : Obligations.PowerCycleResetsTheBlockAndDrawsTheControllers := by
  intro s rest hport
  exact ⟨_, step_powerOn hport, rfl, rfl, rfl, rfl, queue_eq_nil_of_rptr_eq_wptr rfl, rfl, rfl, rfl, rfl, rfl, rfl,
    fun u => pic_powerCycle { s with port := rest } u⟩

/-- Settles O20: the first step of the run is the reset request, and by induction on the steps no longer run goes past one. -/
theorem runsEndAtTheResetRequest : Obligations.RunsEndAtTheResetRequest := by
  refine ⟨fun s w code rest hport hhalt hdecode hrst n => ?_,
    fun n s t h => ⟨runStream_resetRequest_halt h, fun m hnm => runStream_resetRequest_mono h hnm⟩⟩
  have hstep : step s = .next (resetRequest (kdec s.cfg code s.mod).mod { s with port := rest }) :=
    (stepRunsTheDecodedCommand s w rest _ hport hhalt hdecode).trans (execKbdIn_rst hrst)
  exact runStream_reset n hstep hhalt rfl

/-- Settles O57: after the reset the boot commands run to their end, and the mask is its reset value without their accepted lines. -/
theorem bootArmsTheKeyboardAndSerialLines : Obligations.BootArmsTheKeyboardAndSerialLines := by
  rintro s serialPresent base inputs hwf rfl hport
  rw [inputsOf_bootSequence] at hport ⊢
  have hlines : s.cfg.irqLinesOk = true := by
    simp only [Config.wf, Bool.and_eq_true] at hwf
    obtain ⟨⟨-, hlines⟩, -⟩ := hwf
    exact hlines
  obtain ⟨rs, v, o, hdone⟩ :=
    issue_irqEnables_picInit (bootLines s.cfg serialPresent) base (hardwareReset_halt s) (hardwareReset_init s)
  have hmask : v = s.cfg.imaskReset &&& ~~~acceptedLines (bootCommands s.cfg serialPresent base) := issue_done_imask hdone
  have hrun : core.run (HostInput.reset :: (bootCommands s.cfg serialPresent base).map present).length s = .next
      { hardwareReset s with imask := v, init := true, out := o, resp := 0#16, port := [] } := by
    rw [List.length_cons, List.length_map]
    exact (core_run_succ _ (step_reset hport)).trans (core_run_presented hdone)
  refine ⟨_, hrun, rfl, rfl, rfl, queue_eq_nil_of_rptr_eq_wptr rfl, fun n => ?_⟩
  change v.getLsbD n = _
  rw [hmask, and_not_acceptedLines_getLsbD, acceptedLines_bootCommands_getLsbD hlines, Bool.not_or, Bool.and_assoc]
  rfl

/-- Settles O14: with an empty stream there is nothing to take. -/
theorem blockWaitsForAnInput : Obligations.BlockWaitsForAnInput := by
  intro s hport
  simp only [step, takeNext, hport]

end Sys2Proof.Machine
end
